-- ==== Sys2Proof/Word.lean ====
section
/-! DEFINITION. The widths of the DMX core's quantities, one name per kind (00_scope.md R7 to R9, R14, R15).
A quantity is a bit vector exactly where the spec gives it a width; signed values are read with `toInt`. -/

namespace Sys2Proof

/-- A 32-bit register or operand word: `FCW`, `PHASE`, `SRATE` (u_32) and `offs` (s_32). -/
abbrev Word := BitVec 32
/-- A sample, s_16 (`W = 16`, R8): `i`, `q`, `i_out`, `q_out`. -/
abbrev Sample := BitVec 16
/-- An entry of the Oscillator Table and the oscillator sample `lo`, s_17 (`LW = 17`, R9). -/
abbrev Entry := BitVec 17
/-- The gain shift, u_4 (10_state.md R23). -/
abbrev Shift := BitVec 4
/-- A client index as the ports carry it, u_8 (`CIDW = 8`, R9). -/
abbrev ClientIx := BitVec 8
/-- A command word `CMD[63:0]` (30_encoding.md R61). -/
abbrev CmdWord := BitVec 64
/-- A response word `RSP[63:0]` (30_encoding.md R67). -/
abbrev RspWord := BitVec 64
/-- An event word `EVT[79:0]` (30_encoding.md R70). -/
abbrev EvtWord := BitVec 80

end Sys2Proof
end

