-- ==== Sys2Proof/Syntax.lean ====
section
/-! DEFINITION. The command set: one constructor per row of spec/opcode_table.json, and the source lines of the
textual syntax (30_encoding.md R75) that are assembled into command words. -/

namespace Sys2Proof

/-- A command (30_encoding.md R62). Each operand has the width of its field (R66), so every value of this type
can be encoded. -/
inductive Instr where
  /-- `INIT srate`: `srate` is a u_32 in Hz (R63). -/
  | init (srate : Word)
  /-- `SETFREQ cid, offs`: `cid` is a u_8, `offs` an s_32 in Hz (R64). -/
  | setfreq (cid : ClientIx) (offs : Word)
  /-- `PROCESS cid, i, q`: `cid` is a u_8, `i` and `q` are s_16 (R65). -/
  | process (cid : ClientIx) (i q : Sample)
deriving DecidableEq, Repr

/-- A line of source text after reading its numerals (R75): the operands are integers as written, which may lie
outside the range their field can hold. -/
inductive SourceLine where
  /-- `INIT srate` -/
  | init (srate : Int)
  /-- `SETFREQ cid, offs` -/
  | setfreq (cid offs : Int)
  /-- `PROCESS cid, i, q` -/
  | process (cid i q : Int)
  /-- `.word 0x<16 hex digits>`: a word written as it is, legal or not -/
  | word (w : CmdWord)
deriving DecidableEq, Repr

end Sys2Proof
end

