-- ==== Sys2Proof/WellFormed.lean ====
section
/-! DEFINITION. What is well formed. Every `Instr` is: its operands have exactly the widths of their fields
(30_encoding.md R66), so an operand out of range cannot be built. The checks are on the two things that can be ill
formed: a 64-bit word (R72) and a source line with integer operands (R75). -/

namespace Sys2Proof

/-! ## Words (R72) -/

/-- R72 item 1 does not hold: the operation code is one of the three assigned ones. -/
def CmdWord.opcodeAssigned (w : CmdWord) : Bool :=
  w.extractLsb' 60 4 == 1#4 || w.extractLsb' 60 4 == 2#4 || w.extractLsb' 60 4 == 3#4

/-- R72 item 2 does not hold: the reserved bits `51:32` are zero. -/
def CmdWord.reservedZero (w : CmdWord) : Bool := w.extractLsb' 32 20 == 0#20

/-- R72 item 3 does not hold: an `INIT` word has `CID = 0`. -/
def CmdWord.initClientZero (w : CmdWord) : Bool :=
  !(w.extractLsb' 60 4 == 1#4) || w.extractLsb' 52 8 == 0#8

/-- A word is legal when none of the three causes of R72 holds. -/
def CmdWord.legal (w : CmdWord) : Bool :=
  CmdWord.opcodeAssigned w && CmdWord.reservedZero w && CmdWord.initClientZero w

/-! ## Source lines (R75) -/

/-- The range of `srate`: `0 .. 4294967295`. -/
def srateInRange (x : Int) : Bool := decide (0 ≤ x) && decide (x ≤ 4294967295)
/-- The range of `cid`: `0 .. 255`. -/
def cidInRange (x : Int) : Bool := decide (0 ≤ x) && decide (x ≤ 255)
/-- The range of `offs`: `-2147483648 .. 2147483647`. -/
def offsInRange (x : Int) : Bool := decide (-2147483648 ≤ x) && decide (x ≤ 2147483647)
/-- The range of a sample: `-32768 .. 32767`. -/
def sampleInRange (x : Int) : Bool := decide (-32768 ≤ x) && decide (x ≤ 32767)

/-- Every operand can be encoded; a line for which this fails is an assembler error, not a command (R75). -/
def SourceLine.wellFormed : SourceLine → Bool
  | .init srate => srateInRange srate
  | .setfreq cid offs => cidInRange cid && offsInRange offs
  | .process cid i q => cidInRange cid && sampleInRange i && sampleInRange q
  | .word _ => true

end Sys2Proof
end

