-- ==== Sys2Proof/Decode.lean ====
section
/-! DEFINITION. Decoding and encoding of command words (30_encoding.md R61 to R66, R72, R74), the assembler on
integer operands (R75), and the little-endian byte form of words in files (20_memory.md R43). -/

namespace Sys2Proof

/-! ## Fields (R61, R66) -/

/-- `OPC = CMD[63:60]`. -/
def opcField (w : CmdWord) : BitVec 4 := w.extractLsb' 60 4
/-- `CID = CMD[59:52]`. -/
def cidField (w : CmdWord) : ClientIx := w.extractLsb' 52 8
/-- `RSV = CMD[51:32]`. -/
def rsvField (w : CmdWord) : BitVec 20 := w.extractLsb' 32 20
/-- `ARG = CMD[31:0]`: `srate` of `INIT` (u_32), `offs` of `SETFREQ` (s_32). -/
def argField (w : CmdWord) : Word := w.extractLsb' 0 32
/-- `ISMP = CMD[31:16]` of `PROCESS`. -/
def ismpField (w : CmdWord) : Sample := w.extractLsb' 16 16
/-- `QSMP = CMD[15:0]` of `PROCESS`. -/
def qsmpField (w : CmdWord) : Sample := w.extractLsb' 0 16

/-! ## Decoding (R74) -/

/-- Why a word is illegal (R72). The block reports one status for all three (R180); the name is the model's. -/
inductive Illegal where
  /-- `OPC` is `0x0` or `0x4 .. 0xF` (R72 item 1). -/
  | reservedOpcode
  /-- a bit of `CMD[51:32]` is set (R72 item 2). -/
  | reservedBits
  /-- `INIT` with `CID != 0` (R72 item 3). -/
  | initWithClient
deriving DecidableEq, Repr

/-- R74, total on all `2^64` words, in the order of its pseudocode. Reads no state. -/
def decode (w : CmdWord) : Except Illegal Instr :=
  if rsvField w ≠ 0#20 then .error .reservedBits
  else if opcField w = 1#4 then
    if cidField w = 0#8 then .ok (.init (argField w)) else .error .initWithClient
  else if opcField w = 2#4 then .ok (.setfreq (cidField w) (argField w))
  else if opcField w = 3#4 then .ok (.process (cidField w) (ismpField w) (qsmpField w))
  else .error .reservedOpcode

/-! ## Encoding (R61 to R65) -/

/-- The operation code of a command (R62). -/
def Instr.opc : Instr → BitVec 4
  | .init _ => 1#4
  | .setfreq _ _ => 2#4
  | .process _ _ _ => 3#4

/-- The `CID` field of a command; 0 for `INIT` (R61). -/
def Instr.cid : Instr → ClientIx
  | .init _ => 0#8
  | .setfreq cid _ => cid
  | .process cid _ _ => cid

/-- The `ARG` field of a command (R63 to R65). -/
def Instr.arg : Instr → Word
  | .init srate => srate
  | .setfreq _ offs => offs
  | .process _ i q => i ++ q

/-- The word of a command: `OPC`, `CID`, `RSV = 0`, `ARG` (R61). -/
def encode (i : Instr) : CmdWord := i.opc ++ i.cid ++ 0#20 ++ i.arg

/-- `match` of the command's row of spec/opcode_table.json (R63 to R65). -/
def Instr.rowMatch : Instr → CmdWord
  | .init _ => 0x1000000000000000#64
  | .setfreq _ _ => 0x2000000000000000#64
  | .process _ _ _ => 0x3000000000000000#64

/-- `mask` of the command's row of spec/opcode_table.json (R63 to R65). -/
def Instr.rowMask : Instr → CmdWord
  | .init _ => 0xFFFFFFFF00000000#64
  | .setfreq _ _ => 0xF00FFFFF00000000#64
  | .process _ _ _ => 0xF00FFFFF00000000#64

/-! ## The host's question -/

/-- The instruction of a row's `nbits` bits `w`: the block's words are single 64-bit quantities with bit 0 the
least significant (R14, R61), so the bits are the command word itself. -/
def decodeTableWord (nbits w : Nat) : Option Instr :=
  match decode (BitVec.ofNat 64 (w % 2 ^ nbits)) with
  | .ok i => some i
  | .error _ => none

/-! ## Assembling source lines (R75) -/

/-- The command word of a source line; `none` is the assembler error of R75 (an operand out of range). -/
def assemble (l : SourceLine) : Option CmdWord :=
  if SourceLine.wellFormed l then
    match l with
    | .init srate => some (encode (.init (BitVec.ofInt 32 srate)))
    | .setfreq cid offs => some (encode (.setfreq (BitVec.ofInt 8 cid) (BitVec.ofInt 32 offs)))
    | .process cid i q => some (encode (.process (BitVec.ofInt 8 cid) (BitVec.ofInt 16 i) (BitVec.ofInt 16 q)))
    | .word w => some w
  else none

/-! ## Bytes in files (20_memory.md R43)

The block moves no bytes. Only for writing words into files the spec fixes least significant byte first, 8 bytes
for a command or a response and 10 for an event. -/

/-- The lowest `n` bytes of a number, least significant first. -/
def littleEndian : Nat → Nat → List (BitVec 8)
  | 0, _ => []
  | n + 1, x => BitVec.ofNat 8 x :: littleEndian n (x / 256)

/-- The number whose bytes, least significant first, are given. -/
def ofLittleEndian : List (BitVec 8) → Nat
  | [] => 0
  | b :: bs => b.toNat + 256 * ofLittleEndian bs

/-- The 8 bytes of a command or response word. -/
def bytesOfWord (w : BitVec 64) : List (BitVec 8) := littleEndian 8 w.toNat
/-- The 10 bytes of an event word. -/
def bytesOfEvent (w : EvtWord) : List (BitVec 8) := littleEndian 10 w.toNat

/-- A command read from a byte stream and the rest of the stream; `none` when fewer than 8 bytes are left. The
command may be illegal. -/
def decodeBytes (bs : List (BitVec 8)) : Option (Except Illegal Instr × List (BitVec 8)) :=
  if bs.length < 8 then none
  else some (decode (BitVec.ofNat 64 (ofLittleEndian (bs.take 8))), bs.drop 8)

end Sys2Proof
end

