-- ==== Sys2Proof/Config.lean ====
section
/-! DEFINITION. What an implementation fixes: the design constants (00_scope.md R7 to R9), the four open
parameters (R10), the reference configuration of the test vectors (R11), and the uninterpreted constants that
stand for what the spec leaves without a value. -/

namespace Sys2Proof

/-! ## Design constants (R7, R8, R9) -/

namespace Params

/-- `N`, the accumulator width (R7). -/
abbrev accWidth : Nat := 32
/-- `T`, the number of Oscillator Table entries (R8). -/
abbrev tableSize : Nat := 65536
/-- `L = log2 T`, the number of phase bits that select an entry (R8). -/
abbrev indexBits : Nat := 16
/-- `W`, the sample width (R8). -/
abbrev sampleWidth : Nat := 16
/-- `FS`, the full-scale amplitude of the table (R8). -/
abbrev fullScale : Int := 32768
/-- `LW`, the width of a table entry (R9). -/
abbrev entryWidth : Nat := 17
/-- `PW`, the width of the products and of the shifted values (R9). -/
abbrev productWidth : Nat := 33
/-- `SMAX`, the positive full-scale bound of an output sample (R9). -/
abbrev sampleMax : Int := 32767
/-- `SMIN`, the most negative sample (R9). -/
abbrev sampleMin : Int := -32768
/-- `N_HALF`, the document's bound on the shift domain (R9). -/
abbrev nHalf : Nat := 16
/-- `SHT_MAX = N_HALF - 1`, the largest value of the gain shift (R9). -/
abbrev shtMax : Nat := 15
/-- `CIDW`, the width of the client index field (R9). -/
abbrev cidWidth : Nat := 8

end Params

/-! ## The open parameters (R10) -/

/-- The four quantities that have no value in the spec (R10). The model takes them as an argument: every
`State` carries one `Config`, every definition and statement is for every `Config`. -/
structure Config where
  /-- `MAX_CLIENTS`, the number of client slots. -/
  maxClients : Nat
  /-- `SHT_INIT`, the value of the gain shift at the start of life. -/
  shtInit : Shift
  /-- `DEFAULT_OFFSET_HZ`, the offset every client is given by `INIT`, an s_32. -/
  defaultOffsetHz : Word
  /-- `REF_FREQ_HZ`, the fixed reference frequency of a retune request. -/
  refFreqHz : Int
deriving DecidableEq, Repr

/-- The admissible values of R10. `SHT_INIT` in `0 .. 15` and `DEFAULT_OFFSET_HZ` in 32 bits hold by type. -/
abbrev Config.Admissible (c : Config) : Prop :=
  1 ≤ c.maxClients ∧ c.maxClients ≤ 256 ∧ -(2 : Int) ^ 62 < c.refFreqHz ∧ c.refFreqHz < (2 : Int) ^ 62

/-- `CFG_REF` (R11): for test vectors only. No definition of the machine uses it. -/
def Config.reference : Config :=
  { maxClients := 4, shtInit := 10#4, defaultOffsetHz := 0#32, refFreqHz := 10000000 }

/-! ## Uninterpreted constants

None has a body, so nothing can be proved of its value. DESIGN CHOICE, notes/assumptions/2.md, 3.md and 8.md. -/

/-- `MAX_CLIENTS - 1` of the machine that `State.reset` describes (log 2, safe). -/
opaque Config.chipLastClient : Fin 256
/-- `SHT_INIT` of the machine that `State.reset` describes (log 2, safe). -/
opaque Config.chipShtInit : Shift
/-- `DEFAULT_OFFSET_HZ` of the machine that `State.reset` describes (log 2, safe). -/
opaque Config.chipDefaultOffset : Word
/-- `REF_FREQ_HZ + 2^62 - 1` of the machine that `State.reset` describes, in the range R10 leaves (log 2, safe). -/
opaque Config.chipRefFreqRaw : Fin 9223372036854775807

/-- The parameters of the machine that `State.reset` describes: any admissible values, none chosen (R10, log 2). -/
def Config.chip : Config :=
  { maxClients := Config.chipLastClient.val + 1
    shtInit := Config.chipShtInit
    defaultOffsetHz := Config.chipDefaultOffset
    refFreqHz := (Config.chipRefFreqRaw.val : Int) - 4611686018427387903 }

/-- What `SRATE` holds after reset, where R30 gives it no value (log 3, unsafe). -/
opaque Config.unsetSrate : Word
/-- What `FCW[c]` holds after reset, where R30 gives it no value (log 3, unsafe). -/
opaque Config.unsetFcw : Nat → Word
/-- What `PHASE[c]` holds after reset, where R30 gives it no value (log 3, unsafe). -/
opaque Config.unsetPhase : Nat → Word
/-- `fcw(offs, 0)`, which R111 does not define (its domain is `srate >= 1`); no run reaches it (log 8, safe). -/
opaque Config.fcwAtRateZero : Int → Word

end Sys2Proof
end

