-- ==== Sys2Proof/Machine/Arith.lean ====
section
/-! DEFINITION. The arithmetic of the rules on mathematical integers (00_scope.md R14 to R16) and the control-word
function (41_setfreq.md R111). -/

namespace Sys2Proof.Machine

/-- `x >>a k`, the arithmetic right shift `floor(x / 2^k)` (R16). -/
def asr (x : Int) (k : Nat) : Int := x / 2 ^ k

/-- `round_ha(n, d) = sgn(n) * floor((2|n| + d) / (2d))`: nearest, a tie going away from zero (R16). -/
def roundHalfAway (n : Int) (d : Nat) : Int := n.sign * (((2 * n.natAbs + d) / (2 * d) : Nat) : Int)

/-- `fcw(offs, srate) = round_ha(offs * 2^32, srate) mod 2^32` for `srate >= 1` (R111). For `srate = 0`, which R111
leaves out and no run reaches, an uninterpreted value (notes/assumptions/8.md). -/
def fcw (offs : Int) (srate : Nat) : Word :=
  if srate = 0 then Config.fcwAtRateZero offs
  else BitVec.ofInt 32 (roundHalfAway (offs * 4294967296) srate)

/-- The multiplier (43_mixer.md R144): the exact signed product of a sample and the oscillator sample. -/
def mulLo (x : Sample) (lo : Entry) : Int := x.toInt * lo.toInt

/-- The scaler (43_mixer.md R146): arithmetic shift by the gain shift, toward minus infinity. -/
def scale (x : Int) (s : Shift) : Int := asr x s.toNat

/-- The narrowing (43_mixer.md R147): `wrap_16`, the low 16 bits; no saturation. -/
def narrow (x : Int) : Sample := BitVec.ofInt 16 x

end Sys2Proof.Machine
end

