-- ==== Sys2Proof/Machine/State.lean ====
section
/-! DEFINITION. The state of the DMX core (10_state.md) as plain data, the reasons a step can stop, and the state
after reset (10_state.md R30, 70_reset_and_hazards.md R210). -/

namespace Sys2Proof.Machine

/-- One row of the per-client oscillator register file (10_state.md R20, R21). -/
structure Client where
  /-- `FCW[c]`, the frequency control word, u_32. -/
  fcw : Word
  /-- `PHASE[c]`, the phase accumulator, u_32. -/
  phase : Word
deriving DecidableEq, Repr

/-- What the host can do at each point (70_reset_and_hazards.md R211): issue a command word on `cmd`, legal or not,
or assert `rst`. -/
inductive HostAction where
  /-- a command word on the port `cmd` -/
  | cmd (w : CmdWord)
  /-- the input `rst` -/
  | rst
deriving DecidableEq, Repr

/-- One transfer on an output port (30_encoding.md R60). -/
inductive Transfer where
  /-- an event word on the port `evt` -/
  | evt (w : EvtWord)
  /-- a response word on the port `rsp` -/
  | rsp (w : RspWord)
deriving DecidableEq, Repr

/-- The block's state (10_state.md R20 to R25) and the model's own three fields `cfg`, `pending`, `trace`
(notes/assumptions/1.md, 4.md, 5.md). -/
structure State where
  /-- The open parameters (00_scope.md R10). Constant: no step writes it. The model's own field (R13). -/
  cfg : Config
  /-- `INITED` (R25): whether `INIT` has succeeded since reset. -/
  inited : Bool
  /-- `SRATE` (R22), u_32, Hz. -/
  srate : Word
  /-- `SHT` (R23), the gain shift, u_4. -/
  sht : Shift
  /-- The register file (R20, R21): row `c` is `FCW[c]` and `PHASE[c]`, `c` in `0 .. MAX_CLIENTS-1`. -/
  clients : List Client
  /-- The host's actions not yet taken, oldest first (R12, R24). The model's own field. -/
  pending : List HostAction
  /-- The transfers on `evt` and `rsp` so far, oldest first (R78, R215). The model's own field. -/
  trace : List Transfer
deriving DecidableEq, Repr

/-- Why the machine could stop. The block itself never does (30_encoding.md R79). -/
inductive Fault where
  /-- Raised by `PROCESS` and `SETFREQ` when the register file of the `State` value holds no row for an index
  below `MAX_CLIENTS`. SAFE: no `State` that a run reaches is like that (the invariant `State.WF`), and in one
  that is, the model stops instead of inventing a row (notes/assumptions/6.md). -/
  | noSuchRow (cid : ClientIx)
deriving DecidableEq, Repr

/-- Why the model could decline an instruction. -/
inductive Refusal where
  /-- Raised by the arm of an instruction that has no meaning yet; no arm is left like that. SAFE. -/
  | notModelled (mnemonic : String)
deriving DecidableEq, Repr

/-- The registers in the state of "process start" (R30, R210) under the parameters `cfg`: `INITED = 0`,
`SHT = SHT_INIT`. `SRATE` and every `FCW[c]`, `PHASE[c]` have "no value" there; the model holds uninterpreted
constants in them. DESIGN CHOICE, notes/assumptions/3.md, unsafe: one value for every run and every reset. -/
def State.resetOf (cfg : Config) : State :=
  { cfg := cfg
    inited := false
    srate := Config.unsetSrate
    sht := cfg.shtInit
    clients := (List.range cfg.maxClients).map fun c => { fcw := Config.unsetFcw c, phase := Config.unsetPhase c }
    pending := []
    trace := [] }

/-- The machine right after reset (R210), under parameters of which nothing but R10's ranges is known
(notes/assumptions/2.md), with no host action pending and nothing yet on the output ports. -/
def State.reset : State := State.resetOf Config.chip

end Sys2Proof.Machine
end

