-- ==== Sys2Proof/Machine/Flags.lean ====
section
/-! DEFINITION. The block's one flag `INITED` as the commands test it (10_state.md R25, 60_exceptions.md R177), the
overflow test of the gain adaptation (43_mixer.md R150), and the status codes (60_exceptions.md R175). There are no
condition codes and no sticky bits (10_state.md R31). -/

namespace Sys2Proof.Machine

/-- The outcome of a command as its response reports it (R175). -/
inductive Status where
  /-- the command was executed -/
  | ok
  /-- `ERR_NOT_INIT`: `SETFREQ` or `PROCESS` while `INITED = 0` -/
  | errNotInit
  /-- `ERR_CLIENT_RANGE`: `cid >= MAX_CLIENTS` -/
  | errClientRange
  /-- `ERR_ALREADY_INIT`: `INIT` while `INITED = 1` -/
  | errAlreadyInit
  /-- `ERR_ILLEGAL_CMD`: the word is not a command -/
  | errIllegalCmd
  /-- `ERR_BAD_CONFIG`: `INIT` with `srate = 0` -/
  | errBadConfig
deriving DecidableEq, Repr

/-- The codes of R175. -/
def Status.code : Status → BitVec 4
  | .ok => 0#4
  | .errNotInit => 1#4
  | .errClientRange => 2#4
  | .errAlreadyInit => 3#4
  | .errIllegalCmd => 4#4
  | .errBadConfig => 5#4

/-- The lifecycle check of `SETFREQ` and `PROCESS` (R177). -/
def lifecycleRun (s : State) : Option Status := if s.inited then none else some .errNotInit

/-- The lifecycle check of `INIT` (R177). -/
def lifecycleUninit (s : State) : Option Status := if s.inited then some .errAlreadyInit else none

/-- The adaptation condition (R150): the pre-narrowing I value is above `SMAX` and the shift below `SHT_MAX`. Only the
I channel and only its positive side is looked at (R155). -/
def adapts (si : Int) (s : Shift) : Bool := decide (Params.sampleMax < si) && decide (s.toNat < Params.shtMax)

end Sys2Proof.Machine
end

