-- ==== Sys2Proof/Machine/Operands.lean ====
section
/-! DEFINITION. The checks a command makes before it does anything, first cause first: lifecycle, then operand
(60_exceptions.md R176, R177, R179). Decoding has come before (Decode.lean). -/

namespace Sys2Proof.Machine

/-- The operand check of `SETFREQ` and `PROCESS` (R176), against the configured count. -/
def clientInRange (s : State) (cid : ClientIx) : Bool := decide (cid.toNat < s.cfg.maxClients)

/-- Why `INIT srate` is rejected, if it is (40_init_table.md R92). -/
def rejectionOfInit (srate : Word) (s : State) : Option Status :=
  match lifecycleUninit s with
  | some st => some st
  | none => if srate = 0#32 then some .errBadConfig else none

/-- Why a command that names client `cid` is rejected, if it is (41_setfreq.md R113, 43_mixer.md R143). -/
def rejectionOfClient (cid : ClientIx) (s : State) : Option Status :=
  match lifecycleRun s with
  | some st => some st
  | none => if clientInRange s cid then none else some .errClientRange

end Sys2Proof.Machine
end

