-- ==== Sys2Proof/Machine/Table.lean ====
section
/-! DEFINITION. The Oscillator Table `TAB` (10_state.md R26, 40_init_table.md R95), a ROM, from the data of
45_table_data.md R171 by the reconstruction of R170. -/

namespace Sys2Proof.Machine

/-! ## The difference digits (R171)

One pair per line of R171: its 64 digits `d[64r] .. d[64r+63]` as one decimal numeral, and the value
`TAB[64r+64]` that the line ends with. -/

/-- Lines 0 to 31 of R171. -/
def digitRows0 : List (Nat × Nat) :=
  [(3334333333433333343333334333333433333343333334333333433333334333, 201),
   (3334333333433333343333334333333433333343333334333333433333343333, 402),
   (3343333334333333433333343333333433333343333334333333433333343333, 603),
   (3343333334333333433333343333334333333433333334333333433333343333, 804),
   (3343333334333333433333343333334333333433333334333333433333343333, 1005),
   (3343333334333333433333343333333433333343333334333333433333343333, 1206),
   (3343333333433333343333334333333433333343333334333333343333334333, 1407),
   (3334333333433333334333333433333343333334333333433333334333333433, 1608),
   (3333433333343333333433333343333334333333343333334333333433333343, 1809),
   (3333334333333433333343333333433333343333334333333343333334333333, 2009),
   (3433333343333334333333343333334333333433333334333333433333334333, 2210),
   (3334333333343333334333333343333334333333343333334333333343333334, 2411),
   (3333333433333343333333433333343333333433333343333333433333343333, 2611),
   (3334333333343333334333333343333333433333343333333433333334333333, 2811),
   (4333333343333333433333343333333433333334333333343333334333333343, 3012),
   (3333334333333343333333433333343333333433333334333333343333333433, 3212),
   (3333343333333433333334333333343333333433333334333333343333333433, 3412),
   (3333343333333433333334333333343333333433333334333333343333333433, 3612),
   (3333334333333343333333433333334333333343333333343333333433333334, 3812),
   (3333333343333333433333334333333334333333343333333343333333433333, 4011),
   (3343333333343333333433333333433333333433333334333333334333333343, 4211),
   (3333333433333333433333334333333334333333334333333334333333334333, 4410),
   (3333433333333433333333433333333433333333433333333433333333433333, 4609),
   (3334333333334333333334333333333433333333433333333433333333433333, 4808),
   (3333433333333433333333433333333343333333343333333334333333334333, 5007),
   (3333334333333334333333333433333333343333333343333333334333333333, 5205),
   (4333333333433333333343333333334333333333433333333343333333334333, 5404),
   (3333334333333333433333333343333333333433333333343333333334333333, 5602),
   (3333433333333343333333333433333333334333333333433333333334333333, 5800),
   (3333433333333334333333333343333333333433333333334333333333334333, 5998),
   (3333333433333333334333333333334333333333343333333333343333333333, 6195),
   (3433333333334333333333334333333333334333333333333433333333333433, 6393)]

/-- Lines 32 to 63 of R171. -/
def digitRows1 : List (Nat × Nat) :=
  [(3333333334333333333333433333333333433333333333343333333333334333, 6590),
   (3333333334333333333333433333333333343333333333334333333333333343, 6787),
   (3333333333343333333333333433333333333334333333333333343333333333, 6983),
   (3333433333333333334333333333333334333333333333334333333333333334, 7180),
   (3333333333333334333333333333334333333333333333433333333333333334, 7376),
   (3333333333333334333333333333333343333333333333333433333333333333, 7571),
   (3334333333333333333334333333333333333334333333333333333333433333, 7767),
   (3333333333333433333333333333333334333333333333333333334333333333, 7962),
   (3333333333343333333333333333333343333333333333333333333433333333, 8157),
   (3333333333333334333333333333333333333334333333333333333333333333, 8351),
   (3433333333333333333333333333433333333333333333333333333334333333, 8546),
   (3333333333333333333333333433333333333333333333333333333333433333, 8740),
   (3333333333333333333333333333333343333333333333333333333333333333, 8933),
   (3333333333433333333333333333333333333333333333333333333333333343, 9127),
   (3333333333333333333333333333333333333333333333333333333333333333, 9319),
   (3343333333333333333333333333333333333333333333333333333333333333, 9512),
   (3333333333333333333333333333333333333333333333333333333333333333, 9704),
   (3333333333333333333333333333333333333333333333333333333333333333, 9896),
   (3333333333333333333333333333333333333333333333333333333333333333, 10088),
   (3333333333233333333333333333333333333333333333333333333333333333, 10279),
   (3333333333332333333333333333333333333333333333333333333333333233, 10469),
   (3333333333333333333333333333333333333233333333333333333333333333, 10660),
   (3333333332333333333333333333333333333333233333333333333333333333, 10850),
   (3333323333333333333333333333333323333333333333333333333323333333, 11039),
   (3333333333333333233333333333333333333323333333333333333333323333, 11228),
   (3333333333333333233333333333333333323333333333333333332333333333, 11417),
   (3333333323333333333333333323333333333333333233333333333333323333, 11605),
   (3333333333323333333333333332333333333333332333333333333332333333, 11793),
   (3333333233333333333332333333333333323333333333333233333333333323, 11980),
   (3333333333323333333333332333333333333233333333333233333333333233, 12167),
   (3333333332333333333332333333333332333333333323333333333233333333, 12354),
   (3332333333333323333333332333333333323333333333233333333323333333, 12540)]

/-- Lines 64 to 95 of R171. -/
def digitRows2 : List (Nat × Nat) :=
  [(3323333333332333333333233333333323333333332333333333233333333323, 12725),
   (3333333233333333233333333323333333323333333323333333323333333323, 12910),
   (3333333233333333233333332333333332333333332333333323333333233333, 13095),
   (3332333333323333333233333332333333323333333233333332333333323333, 13279),
   (3332333333323333332333333323333333233333323333333233333323333333, 13463),
   (2333333233333323333332333333323333332333333233333323333332333333, 13646),
   (2333333233333323333332333332333333233333323333332333332333333233, 13828),
   (3332333333233333323333323333323333332333332333333233333233333233, 14010),
   (3332333333233333233333233333233333233333233333233333233333233333, 14192),
   (2333332333332333332333332333332333323333323333323333323333233333, 14373),
   (2333332333323333323333233333233332333332333323333323333233333233, 14553),
   (3323333323333233332333332333323333233332333332333323333233332333, 14733),
   (3233333233332333323333233332333323333233332333323333233332333323, 14912),
   (3332333323333233332333233332333323333233332333323332333323333233, 15091),
   (3323332333323333233323333233332333233332333233332333323332333323, 15269),
   (3323333233323333233323333233323333233323333233323332333323332333, 15447),
   (2333323332333323332333233323333233323332333233332333233323332333, 15624),
   (3233323332333233323332333323332333233323332333233323332333233323, 15800),
   (3323332333233323332333233323332333233323332333233323332333233323, 15976),
   (3323323332333233323332333233323323332333233323332332333233323332, 16151),
   (3323332333233323323332333233233323332333233233323332332333233233, 16326),
   (3233323323332332333233323323332332333233233323323332333233233323, 16500),
   (3233323323332332332333233233323323332332333233233233323323332332, 16673),
   (3323332332332333233233323323323332332332332333233233233323323323, 16846),
   (3323323323323332332332332333233233233233233323323323323323332332, 17018),
   (3323323323323332332332332332332332332333233233233233233233233233, 17190),
   (2332332332333233233233233233233233233233233233233233233233233233, 17361),
   (2332332332332332332332332323323323323323323323323323323323323233, 17531),
   (2332332332332332332332323323323323323323233233233233233232332332, 17700),
   (3323323233233233233232332332332323323323323323233233233232332332, 17869),
   (3233233233232332332323323323323233233232332332323323323233233232, 18037),
   (3323323233232332332323323323233232332332323323233233232332323323, 18205)]

/-- Lines 96 to 127 of R171. -/
def digitRows3 : List (Nat × Nat) :=
  [(3232332323323233233232332323323233232332323323323233232332323323, 18372),
   (2332323323233232332323323233232332323233232332323323233232332323, 18538),
   (2332323323233232332323233232332323233232332323233232332323233232, 18703),
   (3323232332323233232323323233232323323232332323233232323323232332, 18868),
   (3232323323232332323233232323233232323323232323323232332323232332, 19032),
   (3232323323232323323232323323232323323232323233232323233232323232, 19195),
   (3323232323233232323232323323232323233232323232323323232323232323, 19358),
   (3232323232323233232323232323233232323232323232323323232323232323, 19520),
   (2323233232323232323232323232323323232323232323232323232323232323, 19681),
   (3232323232323232323232323232323232323232323232323232323232323232, 19841),
   (3232323232323232323232323232323232323232323232323232323232323232, 20001),
   (3223232323232323232323232323232323223232323232323232323232322323, 20160),
   (2323232323232323223232323232323232232323232323232322323232323232, 20318),
   (2323232323232322323232323232232323232322323232323223232323232232, 20475),
   (3232323223232323232232323232232323232232323232232323232232323232, 20632),
   (2323232322323232232323232232323223232322323232232323232232323223, 20788),
   (2323223232322323223232322323232232323223232232323223232232323223, 20943),
   (2322323232232322323232232322323223232322323223232232322323223232, 21097),
   (2323223232322323223232232322322323223232232322323223232232322323, 21251),
   (2232232322323223232232232322323223223232232322322323223232232232, 21403),
   (3223223232232232322322323223223232232232322322322323223223232232, 21555),
   (2322323223223223232232232232322322322322323223223223223232232232, 21706),
   (2322323223223223223223223232232232232232232232232232232322322322, 21856),
   (3223223223223223223223223223223223223223223223223223223223223223, 22006),
   (2232232232232232232223223223223223223223223223222322322322322322, 22154),
   (3222322322322322322232232232232223223223223222322322322322232232, 22302),
   (2322232232232223223223222322322232232232223223222322322322232232, 22449),
   (2232232223223222322322232232223223222322232232223223222322232232, 22595),
   (2232232223222322322232223222322322232223223222322232223222322322, 22740),
   (2322232223222322232232223222322232223222322232223222322232223222, 22884),
   (3222322232223222322232223222322223222322232223222322232222322232, 23028),
   (2232223222232223222322223222322232222322232222322232222322232222, 23170)]

/-- Lines 128 to 159 of R171. -/
def digitRows4 : List (Nat × Nat) :=
  [(3222322223222322223222322223222232223222232222322223222322223222, 23312),
   (2322223222232223222232222322223222232222322223222232222322222322, 23453),
   (2232222322223222232222232222322223222223222232222232222322223222, 23593),
   (2232222232222322222322222322223222223222223222223222223222223222, 23732),
   (2232222232222232222232222232222223222223222223222222322222322222, 23870),
   (2322222322222232222223222222322222322222232222223222222322222223, 24008),
   (2222223222222322222223222222322222223222222232222223222222232222, 24144),
   (2222322222223222222232222222322222222322222222322222222322222222, 24279),
   (3222222223222222223222222222322222222232222222223222222222322222, 24414),
   (2222322222222223222222222232222222222322222222222322222222222322, 24548),
   (2222222223222222222222322222222222223222222222222232222222222222, 24680),
   (2322222222222222322222222222222223222222222222222232222222222222, 24812),
   (2222232222222222222222222232222222222222222222222322222222222222, 24943),
   (2222222222232222222222222222222222222222222322222222222222222222, 25073),
   (2222222222222222222222222322222222222222222222222222222222222222, 25202),
   (2222222222222222222222222222222222222222222222222222222222222222, 25330),
   (2222222222222222222222222222222222222222221222222222222222222222, 25457),
   (2222222222222222222222212222222222222222222222222222222122222222, 25583),
   (2222222222222222212222222222222222222222122222222222222222222122, 25708),
   (2222222222222221222222222222222221222222222222222122222222222222, 25833),
   (1222222222222221222222222222122222222222221222222222221222222222, 25956),
   (2212222222222212222222222212222222222122222222221222222222122222, 26078),
   (2222122222222212222222221222222222122222222122222222122222222122, 26199),
   (2222221222222221222222212222222122222222122222221222222212222222, 26320),
   (1222222122222221222222122222221222222122222212222221222222122222, 26439),
   (2122222212222221222222122222212222212222221222221222221222222122, 26557),
   (2221222221222221222221222221222221222221222221222221222221222221, 26674),
   (2222122222122222122221222221222212222212222122221222221222212222, 26791),
   (1222212222212222122221222212222122221222212222122221222212222122, 26906),
   (2122221222212222122212222122221222122221222212221222212221222212, 27020),
   (2212222122212222122212221222212221222212221222122212222122212221, 27133),
   (2221222122212222122212221222122212221222122212221222122212221222, 27246)]

/-- Lines 160 to 191 of R171. -/
def digitRows5 : List (Nat × Nat) :=
  [(1222122212221221222122212221222122212212221222122212212221222122, 27357),
   (2122122212221221222122122212221221222122122212221221222122122212, 27467),
   (2122212212212221221222122122212212212221221221222122122122212212, 27576),
   (2122212212212212221221221221222122122122122122212212212212212212, 27684),
   (2212212212212212212212212212212212221221221221221221221221221221, 27791),
   (2212212212212122122122122122122122122122122122121221221221221221, 27897),
   (2212122122122122121221221221221212212212212122122122121221221221, 28002),
   (2122122121221221212212212122122121221221212212212122122121221212, 28106),
   (2122121221212212122122121221212212122121221212212122121221212212, 28209),
   (1221212212122121221212212122121212212122121221212122121221212122, 28311),
   (1212212121221212212121221212122121212212121221212122121212212121, 28411),
   (2212121212212121221212121221212121221212121221212121221212121212, 28511),
   (2121212121221212121212212121212122121212121212122121212121212212, 28610),
   (1212121212121221212121212121212122121212121212121212121212122121, 28707),
   (2121212121212121212121212121212121212121212121212121212121212121, 28803),
   (2121212121212121212121212121212121212121212121212121121212121212, 28899),
   (1212121212121211212121212121212121121212121212121211212121212121, 28993),
   (1212121212121121212121212112121212121121212121211212121211212121, 29086),
   (2121121212121121212112121212112121212112121211212121121212121121, 29178),
   (2121121212112121121212112121211212121121211212121121211212121121, 29269),
   (2112121121212112121121211212112121121211212112121121211212112121, 29359),
   (1212112121121211211212112121121211211212112121121121211211212112, 29448),
   (1211211212112112121121121211211211212112112112121121121211211211, 29535),
   (2112121121121121121211211211211212112112112112112112112121121121, 29622),
   (1211211211211211211211211211211211211211211211211211211211211211, 29707),
   (2112112112112112111211211211211211211211121121121121121112112112, 29792),
   (1121112112112112111211211211121121121112112112111211211121121112, 29875),
   (1121121112112111211211121121112112111211121121112112111211121121, 29957),
   (1121112112111211121112112111211121112112111211121112111211121112, 30038),
   (1121112111211121112111211121112111211112111211121112111211121112, 30118),
   (1111211121112111211112111211121111211121111211121112111121112111, 30196),
   (1211112111211112111211112111121111211121111211112111121111211112, 30274)]

/-- Lines 192 to 223 of R171. -/
def digitRows6 : List (Nat × Nat) :=
  [(1111211112111121111211112111121111211112111121111121111211112111, 30350),
   (1121111211111211112111112111112111121111121111121111121111121111, 30425),
   (1211111211111211111211111211111121111121111112111112111111211111, 30499),
   (2111111211111121111112111111211111121111112111111121111112111111, 30572),
   (1211111112111111121111111211111112111111121111111121111111211111, 30644),
   (1112111111112111111112111111111211111111121111111112111111111211, 30715),
   (1111111121111111111211111111112111111111112111111111111211111111, 30784),
   (1112111111111111121111111111111211111111111111121111111111111112, 30853),
   (1111111111111111121111111111111111111211111111111111111111121111, 30920),
   (1111111111111111111111211111111111111111111111111111111112111111, 30986),
   (1111111111111111111111111111111111111111111111111111111111111111, 31050),
   (1111121111111111111110111111111111111111111111111111111111111111, 31114),
   (1111111111111111111111111111111110111111111111111111111111111111, 31177),
   (1110111111111111111111111111110111111111111111111111011111111111, 31238),
   (1111111101111111111111111101111111111111110111111111111110111111, 31298),
   (1111111011111111111110111111111111011111111111011111111111011111, 31357),
   (1111101111111111011111111110111111111011111111101111111110111111, 31415),
   (1101111111101111111101111111101111111101111111011111111011111110, 31471),
   (1111111011111101111111011111110111111011111101111110111111101111, 31527),
   (1101111101111110111111011111101111101111110111110111110111110111, 31581),
   (1110111110111110111110111110111110111101111101111101111011111011, 31634),
   (1110111101111011111011110111101111101111011110111101111011110111, 31686),
   (1011110111101111011110111101111011110111011110111101110111101111, 31737),
   (0111011110111011110111011110111011101111011101111011101110111011, 31786),
   (1101110111011101110111011101111011101110111011101110111011101101, 31834),
   (1101110111011101110111011101101110111011101101110111011011101110, 31881),
   (1101110111011011101101110111011011101101110110111011011011101101, 31927),
   (1101101110110110111011011011101101101110110110110111011011011011, 31972),
   (0111011011011011011101101101101101101101101101110110110110110110, 32015),
   (1101101101101101101101101101101101101011011011011011011011011011, 32058),
   (0101101101101101101011011011011010110110110101101101101011011011, 32099),
   (0101101101011011010110110101101101011011010110110101101011011010, 32138)]

/-- Lines 224 to 255 of R171. -/
def digitRows7 : List (Nat × Nat) :=
  [(1101011010110110101101011010110101101011010110101101011010110101, 32177),
   (1010110101101010110101101011010101101011010101101010110101101010, 32214),
   (1101010110101011010101101010110101010110101011010101011010101011, 32251),
   (0101010110101010110101010110101010101101010101010110101010101101, 32286),
   (0101010101011010101010101011010101010101010101011010101010101010, 32319),
   (1010101011010101010101010101010101010101010101010101010101010101, 32352),
   (0101010101010101010101010101010101010101010101010010101010101010, 32383),
   (1010101010010101010101010101001010101010101010010101010101001010, 32413),
   (1010101001010101010010101010100101010101001010101001010101001010, 32442),
   (1010010101010010101001010100101010100101010010101001010100101001, 32470),
   (0101001010100101001010100101001010100101001010010100101010010100, 32496),
   (1010010100101001010010100101001010010010100101001010010010100101, 32522),
   (0010010100101001001010010010100100101001001010010010100100100101, 32546),
   (0010010010100100100101001001001001010010010010010010100100100100, 32568),
   (1001001001001010010010010010010010010010010010010010010010010010, 32590),
   (0100100010010010010010010010010010001001001001001000100100100100, 32610),
   (1000100100100010010010010001001001000100100010010010001001000100, 32629),
   (1000100100010010001001000100100010010001000100100010001001000100, 32647),
   (0100100010001000100100010001000100010001000100100010001000100010, 32664),
   (0010001000100010001000010001000100010001000100001000100010001000, 32679),
   (0100010001000010001000010001000010001000010001000010000100010000, 32693),
   (1000010000100010000100001000010000100001000010000100001000010000, 32706),
   (1000001000010000100000100001000010000010000100000100000100001000, 32718),
   (0010000010000010000010000010000010000010000010000010000001000001, 32729),
   (0000001000001000000100000010000001000000100000010000001000000100, 32738),
   (0000010000001000000010000000100000001000000010000000100000000100, 32746),
   (0000001000000001000000001000000001000000000100000000100000000001, 32753),
   (0000000001000000000010000000000100000000000100000000000100000000, 32758),
   (0000100000000000001000000000000010000000000000001000000000000000, 32762),
   (1000000000000000000100000000000000000001000000000000000000000001, 32766),
   (0000000000000000000000000000100000000000000000000000000000000000, 32767),
   (0000001000000000000000000000000000000000000000000000000000000000, 32768)]

/-- The 256 lines of R171. -/
def digitRows : List (Nat × Nat) :=
  digitRows0 ++ digitRows1 ++ digitRows2 ++ digitRows3 ++ digitRows4 ++ digitRows5 ++ digitRows6 ++ digitRows7

/-! ## Reconstruction (R170) -/

/-- `d[k]`: digit `k mod 64` of line `k / 64`, counted from the left. -/
def diffDigit (k : Nat) : Nat := (digitRows.getD (k / 64) (0, 0)).1 / 10 ^ (63 - k % 64) % 10

/-- The sum of the lowest `n` decimal digits of a numeral. -/
def digitSum : Nat → Nat → Nat
  | 0, _ => 0
  | n + 1, x => x % 10 + digitSum n (x / 10)

/-- `TAB[64r]`: 0 for the first line, else the check value that ends the line before. -/
def rowStart : Nat → Nat
  | 0 => 0
  | r + 1 => (digitRows.getD r (0, 0)).2

/-- `TAB[k]` for `k` in `0 .. 16384`: the value its line starts from and the digits of the line before `d[k]`.
R170 defines it by `TAB[0] = 0`, `TAB[k+1] = TAB[k] + d[k]`; the law `tabQuarter_succ` (Laws/Table.lean) says that
the two agree (notes/assumptions/7.md). -/
def tabQuarter (k : Nat) : Nat :=
  rowStart (k / 64) + digitSum (k % 64) ((digitRows.getD (k / 64) (0, 0)).1 / 10 ^ (64 - k % 64))

/-- `TAB[k]` for `k` in `0 .. 32768`, by the quarter-wave mirror of R170. -/
def tabHalf (k : Nat) : Nat := if k ≤ 16384 then tabQuarter k else tabQuarter (32768 - k)

/-- `TAB[k]` for `k` in `0 .. 65535`, by the half-wave antisymmetry of R170. -/
def tabInt (k : Nat) : Int := if k ≤ 32768 then (tabHalf k : Int) else -(tabHalf (k - 32768) : Int)

/-- `TabRead(k)` (00_scope.md R17, 20_memory.md R40): the whole 17-bit entry. Every index is valid. -/
def tabRead (k : BitVec 16) : Entry := BitVec.ofInt 17 (tabInt k.toNat)

/-- The table of `2^m` entries of 45_table_data.md R172, `m <= 16`: `TAB_T[j] = TAB[j * 65536 / T]`. Not part of this
hardware. -/
def smallTable (m j : Nat) : Int := tabInt (j * 65536 / 2 ^ m)

end Sys2Proof.Machine
end

