-- ==== Sys2Proof/Machine/Ops.lean ====
section
/-! DEFINITION. The named operations the commands share: output words and their transfer, the rejection (the block's
one "exception entry"), register access, the oscillator step, gain adaptation and reset. -/

namespace Sys2Proof.Machine

/-! ## Response words (30_encoding.md R67) -/

/-- `RSP[63:0]`: `OPC`, `CID`, `STATUS`, sixteen zeros, `DATA`. -/
def rspWord (opc : BitVec 4) (cid : ClientIx) (st : Status) (data : Word) : RspWord :=
  opc ++ cid ++ st.code ++ 0#16 ++ data

/-! ## Event words (30_encoding.md R70, R71) -/

/-- The three observable events (60_exceptions.md R182 to R184). -/
inductive Event where
  /-- a retune request: the frequency in Hz the receiver is asked to tune to -/
  | tuneReq (cid : ClientIx) (hz : Int)
  /-- a frequency-change notification: the requested offset and the new control word -/
  | freqChanged (cid : ClientIx) (offs fcw : Word)
  /-- a gain-shift-adapted notification: the new shift -/
  | gainAdapted (cid : ClientIx) (sht : Shift)
deriving DecidableEq, Repr

/-- `KIND` (R70). -/
def Event.kind : Event → BitVec 4
  | .tuneReq _ _ => 1#4
  | .freqChanged _ _ _ => 2#4
  | .gainAdapted _ _ => 3#4

/-- The `CID` of the command that caused the event (R70). -/
def Event.client : Event → ClientIx
  | .tuneReq cid _ => cid
  | .freqChanged cid _ _ => cid
  | .gainAdapted cid _ => cid

/-- `PAYLOAD` (R71). -/
def Event.payload : Event → BitVec 64
  | .tuneReq _ hz => BitVec.ofInt 64 hz
  | .freqChanged _ offs fcw => fcw ++ offs
  | .gainAdapted _ sht => 0#60 ++ sht

/-- `EVT[79:0]`: `KIND`, four zeros, `CID`, `PAYLOAD` (R70). -/
def Event.word (e : Event) : EvtWord := e.kind ++ 0#4 ++ e.client ++ e.payload

/-! ## Transfers (30_encoding.md R78, R79: none can be refused) -/

/-- `emit` (00_scope.md R17): one transfer on `evt`. -/
def State.emit (e : Event) (s : State) : State := { s with trace := s.trace ++ [.evt e.word] }

/-- One transfer on `rsp`. -/
def State.answer (opc : BitVec 4) (cid : ClientIx) (st : Status) (data : Word) (s : State) : State :=
  { s with trace := s.trace ++ [.rsp (rspWord opc cid st data)] }

/-- `respond OK(data)` (00_scope.md R17), with the command's `OPC` and `CID` echoed. -/
def State.respond (i : Instr) (data : Word) (s : State) : State := s.answer i.opc i.cid .ok data

/-- `reject` (00_scope.md R17, 60_exceptions.md R178): the mechanism of every rejection. No register is written, no
event is emitted, one response with the status, `DATA = 0` and the word's own `OPC` and `CID` bits. Control goes
nowhere and there is nothing to return from (R181). -/
def State.reject (opc : BitVec 4) (cid : ClientIx) (st : Status) (s : State) : State := s.answer opc cid st 0#32

/-! ## Registers (10_state.md R20, R21) -/

/-- Row `cid` of the register file. -/
def State.row (s : State) (cid : ClientIx) : Option Client := s.clients[cid.toNat]?

/-- Write of row `cid`; a row the file does not have is not created. -/
def State.setRow (cid : ClientIx) (r : Client) (s : State) : State :=
  { s with clients := s.clients.set cid.toNat r }

/-! ## The oscillator step (42_nco_step.md R130) -/

/-- The table index of a phase: its top 16 bits, truncated, not rounded (R131). -/
def tableIndex (p : Word) : BitVec 16 := p.extractLsb' 16 16

/-- `NCOSTEP(cid)` (R130): add first, then look up with the advanced phase (R132); the carry out is dropped (R133).
`none` only where the register file has no such row. -/
def State.ncoStep (cid : ClientIx) (s : State) : Option (Entry × State) :=
  match s.row cid with
  | none => none
  | some r =>
    let p := r.phase + r.fcw
    some (tabRead (tableIndex p), s.setRow cid { r with phase := p })

/-! ## Gain adaptation (43_mixer.md R150) -/

/-- Stage 4 of `PROCESS`: if the condition of R150 holds, `SHT` rises by one and `GAIN_ADAPTED` is emitted. -/
def State.adapt (cid : ClientIx) (si : Int) (s : State) : State :=
  if adapts si s.sht then
    ({ s with sht := s.sht + 1#4 }).emit (.gainAdapted cid (s.sht + 1#4))
  else s

/-! ## Reset (70_reset_and_hazards.md R210) -/

/-- `rst`: every register as right after power-up; no event and no response. The parameters, the host's further
actions and what the ports have carried stay (R211, R215; notes/assumptions/10.md). -/
def State.afterReset (s : State) : State :=
  { State.resetOf s.cfg with pending := s.pending, trace := s.trace }

end Sys2Proof.Machine
end

