-- ==== Sys2Proof/Machine/Init.lean ====
section
/-! DEFINITION. The command `INIT` (40_init_table.md). -/

namespace Sys2Proof.Machine

/-- What an accepted `INIT srate` writes (R93): `SRATE`, every row, `INITED`. Not `SHT`. -/
def State.initialise (srate : Word) (s : State) : State :=
  { s with
    srate := srate
    clients := List.replicate s.cfg.maxClients { fcw := fcw s.cfg.defaultOffsetHz.toInt srate.toNat, phase := 0#32 }
    inited := true }

/-- `INIT srate` (R92, R93): emits no event (R94). -/
def execInit (srate : Word) (s : State) : Host.Outcome State Fault Refusal :=
  match rejectionOfInit srate s with
  | some st => .next (s.reject 1#4 0#8 st)
  | none => .next ((s.initialise srate).respond (.init srate) 0#32)

end Sys2Proof.Machine
end

