-- ==== Sys2Proof/Machine/Process.lean ====
section
/-! DEFINITION. The command `PROCESS` (43_mixer.md). -/

namespace Sys2Proof.Machine

/-- `PROCESS cid, i, q` (R142, R143). The shift amount of the whole command is `SHT` as it was at the start (R149); the
oscillator runs once and serves both channels (R145); adaptation looks at the I channel before narrowing (R150). -/
def execProcess (cid : ClientIx) (i q : Sample) (s : State) : Host.Outcome State Fault Refusal :=
  match rejectionOfClient cid s with
  | some st => .next (s.reject 3#4 cid st)
  | none =>
    match s.ncoStep cid with
    | none => .fault (.noSuchRow cid)
    | some (lo, s1) =>
      let si := scale (mulLo i lo) s.sht
      let sq := scale (mulLo q lo) s.sht
      .next ((s1.adapt cid si).respond (.process cid i q) (narrow si ++ narrow sq))

end Sys2Proof.Machine
end

