-- ==== Sys2Proof/Machine/Setfreq.lean ====
section
/-! DEFINITION. The command `SETFREQ` (41_setfreq.md). -/

namespace Sys2Proof.Machine

/-- The events of an accepted `SETFREQ` (R112): `TUNE_REQ` always, then `FREQ_CHANGED` when the offset is not the
default. -/
def State.announceFreq (cid : ClientIx) (offs w : Word) (s : State) : State :=
  let s1 := s.emit (.tuneReq cid (offs.toInt + s.cfg.refFreqHz))
  if offs = s.cfg.defaultOffsetHz then s1 else s1.emit (.freqChanged cid offs w)

/-- `SETFREQ cid, offs` (R112, R113): writes `FCW[cid]` only; the phase stays (R114). -/
def execSetfreq (cid : ClientIx) (offs : Word) (s : State) : Host.Outcome State Fault Refusal :=
  match rejectionOfClient cid s with
  | some st => .next (s.reject 2#4 cid st)
  | none =>
    match s.row cid with
    | none => .fault (.noSuchRow cid)
    | some r =>
      let w := fcw offs.toInt s.srate.toNat
      .next (((s.setRow cid { r with fcw := w }).announceFreq cid offs w).respond (.setfreq cid offs) w)

end Sys2Proof.Machine
end

