-- ==== Sys2Proof/Machine/Dispatch.lean ====
section
/-! DEFINITION. One arm per command: each calls its meaning. -/

namespace Sys2Proof.Machine

def exec (i : Instr) (s : State) : Host.Outcome State Fault Refusal :=
  match i with
  -- 40_init_table.md R93
  | .init srate => Sys2Proof.Machine.execInit srate s
  -- 41_setfreq.md R112
  | .setfreq cid offs => Sys2Proof.Machine.execSetfreq cid offs s
  -- 43_mixer.md R142
  | .process cid ismp qsmp => Sys2Proof.Machine.execProcess cid ismp qsmp s

end Sys2Proof.Machine
end

