-- ==== Sys2Proof/Machine/Act.lean ====
section
/-! DEFINITION. What one host action does to the block (70_reset_and_hazards.md R211): a command word is decoded and
executed or rejected as illegal, `rst` resets. -/

namespace Sys2Proof.Machine

/-- Execution of a command word (30_encoding.md R74): the command it decodes to, or the rejection
`ERR_ILLEGAL_CMD` with the word's own `OPC` and `CID` bits echoed (R67, 60_exceptions.md R180). -/
def execWord (w : CmdWord) (s : State) : Host.Outcome State Fault Refusal :=
  match decode w with
  | .ok i => exec i s
  | .error _ => .next (s.reject (opcField w) (cidField w) .errIllegalCmd)

/-- One host action (R211): the next command, or reset. -/
def act (a : HostAction) (s : State) : Host.Outcome State Fault Refusal :=
  match a with
  | .cmd w => execWord w s
  | .rst => .next s.afterReset

/-- The oldest host action not yet taken, and the state without it (00_scope.md R12, 10_state.md R24). -/
def State.takeAction (s : State) : Option (HostAction × State) :=
  match s.pending with
  | [] => none
  | a :: rest => some (a, { s with pending := rest })

end Sys2Proof.Machine
end

