-- ==== Sys2Proof/Machine/Step.lean ====
section
/-! DEFINITION. One step of the machine: it takes the oldest pending host action and performs it. -/

namespace Sys2Proof.Machine

/-- One step (00_scope.md R12). With no action pending the block waits, and nothing changes (70_reset_and_hazards.md
R210; notes/assumptions/4.md). -/
def step (s : State) : Host.Outcome State Fault Refusal :=
  match s.takeAction with
  | none => .next s
  | some (a, s1) => act a s1

/-- `s` with the host's next action being the command word whose `nbits` bits are `w`: the next step takes exactly
it (notes/assumptions/4.md). The host's other actions stay behind it. -/
def State.withFetchWord (s : State) (nbits w : Nat) : State :=
  { s with pending := .cmd (BitVec.ofNat 64 (w % 2 ^ nbits)) :: s.pending }

end Sys2Proof.Machine
end

