-- ==== Sys2Proof/Machine/Text.lean ====
section
/-! DEFINITION. The textual syntax of commands (30_encoding.md R75) and of outputs (R76), on lists of characters. No
rule of the block depends on it. What the rules leave open of it is in notes/assumptions/11.md. -/

namespace Sys2Proof.Machine

/-! ## Numerals (00_scope.md R14) -/

/-- The character of a digit below 16. -/
def digitChar (d : Nat) : Char := if d < 10 then Char.ofNat (48 + d) else Char.ofNat (55 + d)

/-- The lowest `n` digits of `x` in base `b`, most significant first. -/
def fixedDigits (b : Nat) : Nat → Nat → List Char
  | 0, _ => []
  | n + 1, x => fixedDigits b n (x / b) ++ [digitChar (x % b)]

/-- How many decimal digits `x` has, counting at most `n`; 1 for 0. -/
def decimalLength : Nat → Nat → Nat
  | 0, _ => 1
  | n + 1, x => if x < 10 then 1 else decimalLength n (x / 10) + 1

/-- A decimal numeral, with a leading `-` for a negative number. -/
def decimal (x : Int) : List Char :=
  (if x < 0 then ['-'] else []) ++ fixedDigits 10 (decimalLength x.natAbs x.natAbs) x.natAbs

/-- `0x` and exactly `n` hexadecimal digits. -/
def hex (n x : Nat) : List Char := ['0', 'x'] ++ fixedDigits 16 n x

/-! ## Printing (R75, R76) -/

/-- A command as one line of source text (R75). -/
def textOfInstr : Instr → List Char
  | .init srate => ['I', 'N', 'I', 'T', ' '] ++ decimal srate.toNat
  | .setfreq cid offs => ['S', 'E', 'T', 'F', 'R', 'E', 'Q', ' '] ++ decimal cid.toNat ++ [',', ' '] ++ decimal offs.toInt
  | .process cid i q =>
    ['P', 'R', 'O', 'C', 'E', 'S', 'S', ' '] ++ decimal cid.toNat ++ [',', ' '] ++ decimal i.toInt ++ [',', ' ']
      ++ decimal q.toInt

/-- A word as one line of source text: its command, or `.word` when it is illegal (R75). -/
def textOfWord (w : CmdWord) : List Char :=
  match decode w with
  | .ok i => textOfInstr i
  | .error _ => ['.', 'w', 'o', 'r', 'd', ' '] ++ hex 16 w.toNat

/-- The name of a status in a response line (R76). -/
def textOfStatus : Status → List Char
  | .ok => ['O', 'K']
  | .errNotInit => ['E', 'R', 'R', '_', 'N', 'O', 'T', '_', 'I', 'N', 'I', 'T']
  | .errClientRange => ['E', 'R', 'R', '_', 'C', 'L', 'I', 'E', 'N', 'T', '_', 'R', 'A', 'N', 'G', 'E']
  | .errAlreadyInit => ['E', 'R', 'R', '_', 'A', 'L', 'R', 'E', 'A', 'D', 'Y', '_', 'I', 'N', 'I', 'T']
  | .errIllegalCmd => ['E', 'R', 'R', '_', 'I', 'L', 'L', 'E', 'G', 'A', 'L', '_', 'C', 'M', 'D']
  | .errBadConfig => ['E', 'R', 'R', '_', 'B', 'A', 'D', '_', 'C', 'O', 'N', 'F', 'I', 'G']

/-- The status a code stands for; codes 6 to 15 are never produced (R175). -/
def statusOfCode (c : BitVec 4) : Option Status :=
  [.ok, .errNotInit, .errClientRange, .errAlreadyInit, .errIllegalCmd, .errBadConfig][c.toNat]?

/-- The data of a response `OK`, by the operation code it echoes (R76). -/
def textOfData (opc : BitVec 4) (data : Word) : List Char :=
  if opc = 2#4 then [' ', 'f', 'c', 'w', '='] ++ hex 8 data.toNat
  else if opc = 3#4 then
    [' ', 'i', '_', 'o', 'u', 't', '='] ++ decimal (data.extractLsb' 16 16).toInt
      ++ [' ', 'q', '_', 'o', 'u', 't', '='] ++ decimal (data.extractLsb' 0 16).toInt
  else []

/-- A response word in the notation of R76; `none` for a status that is never produced. -/
def textOfResponse (w : RspWord) : Option (List Char) :=
  match statusOfCode (w.extractLsb' 48 4) with
  | none => none
  | some .ok => some (['-', '>', ' ', 'O', 'K'] ++ textOfData (w.extractLsb' 60 4) (w.extractLsb' 0 32))
  | some st => some (['-', '>', ' '] ++ textOfStatus st)

/-- An event in the notation of R76. -/
def textOfEvent : Event → List Char
  | .tuneReq cid hz =>
    ['!', ' ', 'T', 'U', 'N', 'E', '_', 'R', 'E', 'Q', ' ', 'c', 'i', 'd', '='] ++ decimal cid.toNat
      ++ [' ', 'h', 'z', '='] ++ decimal hz
  | .freqChanged cid offs w =>
    ['!', ' ', 'F', 'R', 'E', 'Q', '_', 'C', 'H', 'A', 'N', 'G', 'E', 'D', ' ', 'c', 'i', 'd', '='] ++ decimal cid.toNat
      ++ [' ', 'o', 'f', 'f', 's', '='] ++ decimal offs.toInt ++ [' ', 'f', 'c', 'w', '='] ++ hex 8 w.toNat
  | .gainAdapted cid sht =>
    ['!', ' ', 'G', 'A', 'I', 'N', '_', 'A', 'D', 'A', 'P', 'T', 'E', 'D', ' ', 'c', 'i', 'd', '='] ++ decimal cid.toNat
      ++ [' ', 's', 'h', 't', '='] ++ decimal sht.toNat

/-- The event an event word reports (R70, R71); `none` for a `KIND` that is never produced. -/
def eventOfWord (w : EvtWord) : Option Event :=
  let cid := w.extractLsb' 64 8
  let payload := w.extractLsb' 0 64
  if w.extractLsb' 76 4 = 1#4 then some (.tuneReq cid payload.toInt)
  else if w.extractLsb' 76 4 = 2#4 then some (.freqChanged cid (payload.extractLsb' 0 32) (payload.extractLsb' 32 32))
  else if w.extractLsb' 76 4 = 3#4 then some (.gainAdapted cid (payload.extractLsb' 0 4))
  else none

/-- One line of output (R76); `none` for a word the block never produces. -/
def textOfTransfer : Transfer → Option (List Char)
  | .evt w => (eventOfWord w).map textOfEvent
  | .rsp w => textOfResponse w

/-! ## Reading source lines (R75) -/

/-- The value of a hexadecimal digit of either case. -/
def digitValue (c : Char) : Option Nat :=
  if '0' ≤ c ∧ c ≤ '9' then some (c.toNat - 48)
  else if 'A' ≤ c ∧ c ≤ 'F' then some (c.toNat - 55)
  else if 'a' ≤ c ∧ c ≤ 'f' then some (c.toNat - 87)
  else none

/-- The number that digits in base `b` continue from `acc`; a `_` inside a numeral only groups digits (R14). DESIGN
CHOICE, notes/assumptions/11.md: a trailing `_` (`5_`) and several in a row (`1__0`), on which R14 and R75 are silent,
are read as grouping too. -/
def readDigits (b : Nat) : List Char → Nat → Option Nat
  | [], acc => some acc
  | c :: cs, acc =>
    if c = '_' then readDigits b cs acc
    else match digitValue c with
      | none => none
      | some d => if d < b then readDigits b cs (acc * b + d) else none

/-- Digits of a numeral: at least one, the first no `_` (DESIGN CHOICE, notes/assumptions/11.md). -/
def readNumeral (b : Nat) : List Char → Option Nat
  | [] => none
  | c :: cs => if c = '_' then none else readDigits b (c :: cs) 0

/-- An operand: decimal with an optional leading `-`, or `0x` hexadecimal. -/
def readOperand : List Char → Option Int
  | '-' :: cs => (readNumeral 10 cs).map fun n => -(n : Int)
  | '0' :: 'x' :: cs => (readNumeral 16 cs).map fun n => (n : Int)
  | cs => (readNumeral 10 cs).map fun n => (n : Int)

/-- White space between the parts of a line: a space or a tab (DESIGN CHOICE, notes/assumptions/11.md). -/
def isBlank (c : Char) : Bool := c == ' ' || c == '\t'

/-- A piece of text without the blanks around it. -/
def trimBlanks (cs : List Char) : List Char := ((cs.dropWhile isBlank).reverse.dropWhile isBlank).reverse

/-- The parts of a text between its commas. -/
def splitCommas : List Char → List (List Char)
  | [] => [[]]
  | c :: cs =>
    match splitCommas cs with
    | [] => [[c]]
    | p :: ps => if c = ',' then [] :: p :: ps else (c :: p) :: ps

/-- One line of source text (R75); a `;` starts a comment. `none` where it is no line of that form. DESIGN CHOICE,
notes/assumptions/11.md: an empty line, and one that holds only blanks or a comment, on which R75 is silent, holds no
command, so it is `none` like a line of another form. -/
def readLine (line : List Char) : Option SourceLine :=
  let body := trimBlanks (line.takeWhile fun c => !(c == ';'))
  let name := body.takeWhile fun c => !isBlank c
  let parts := (splitCommas (body.drop name.length)).map trimBlanks
  if name = ['.', 'w', 'o', 'r', 'd'] then
    match parts with
    | ['0' :: 'x' :: ds] =>
      if ds.length = 16 ∧ '_' ∉ ds then (readNumeral 16 ds).map fun n => .word (BitVec.ofNat 64 n) else none
    | _ => none
  else
    match parts.mapM readOperand with
    | some [srate] => if name = ['I', 'N', 'I', 'T'] then some (.init srate) else none
    | some [cid, offs] => if name = ['S', 'E', 'T', 'F', 'R', 'E', 'Q'] then some (.setfreq cid offs) else none
    | some [cid, i, q] => if name = ['P', 'R', 'O', 'C', 'E', 'S', 'S'] then some (.process cid i q) else none
    | _ => none

/-- The command word of one line of source text; `none` where there is none: an assembler error (R75), or a line
without a command (`readLine`). -/
def assembleLine (line : List Char) : Option CmdWord := (readLine line).bind assemble

end Sys2Proof.Machine
end

