-- ==== Sys2Proof/Safety.lean ====
section
/-! DEFINITION. What counts as a safe state and a safe run, and the words the claims use about runs: a run is a finite
list of host actions (70_reset_and_hazards.md R215). -/

namespace Sys2Proof.Machine

/-- The states a run can reach satisfy this: the parameters are admissible (00_scope.md R10), the register file has
`MAX_CLIENTS` rows (10_state.md R20, R29), `SHT_INIT <= SHT` (R28; `SHT <= 15` holds by its width), and in state `RUN`
the sample rate is a legal one (R22). -/
abbrev State.WF (s : State) : Prop :=
  s.cfg.Admissible ∧ s.clients.length = s.cfg.maxClients ∧ s.cfg.shtInit.toNat ≤ s.sht.toNat ∧
    (s.inited = true → s.srate ≠ 0#32)

/-- A step is safe when it answers a next state: no fault, no refusal (30_encoding.md R79). -/
abbrev SafeStep (s : State) : Prop := ∃ t, step s = .next t

/-! ## Runs -/

/-- A run: the host's actions one after another, each to completion (20_memory.md R48). -/
def runActions : List HostAction → State → Host.Outcome State Fault Refusal
  | [], s => .next s
  | a :: as, s =>
    match act a s with
    | .next t => runActions as t
    | .fault f => .fault f
    | .refused r => .refused r

/-- The run contains no reset: it lies within one life of the block (R28). -/
def noReset (as : List HostAction) : Bool := as.all fun a => !(decide (a = .rst))

/-- The command a host action issues, if it is a legal one. -/
def commandOf : HostAction → Option Instr
  | .rst => none
  | .cmd w =>
    match decode w with
    | .ok i => some i
    | .error _ => none

/-- The action is a `PROCESS` with client index `c`, accepted or not. -/
def isProcessOf (c : ClientIx) (a : HostAction) : Bool :=
  match commandOf a with
  | some (.process cid _ _) => decide (cid = c)
  | _ => false

/-- The action is a `SETFREQ` with client index `c`, accepted or not. -/
def isSetfreqOf (c : ClientIx) (a : HostAction) : Bool :=
  match commandOf a with
  | some (.setfreq cid _) => decide (cid = c)
  | _ => false

/-- `SETFREQ` and `PROCESS` are accepted in state `RUN` with an index below `MAX_CLIENTS` (R113, R143). -/
def acceptsClient (cid : ClientIx) (s : State) : Bool := s.inited && decide (cid.toNat < s.cfg.maxClients)

/-- The action is a `PROCESS` of client `c` that the block accepts. -/
def processesClient (c : ClientIx) (a : HostAction) (s : State) : Bool :=
  match commandOf a with
  | some (.process cid _ _) => decide (cid = c) && acceptsClient cid s
  | _ => false

/-- The control word `w_j` by which the action advances `PHASE[c]` (R27); 0 if it is no accepted `PROCESS c`. -/
def phaseIncrement (c : ClientIx) (a : HostAction) (s : State) : Word :=
  if processesClient c a s then
    match s.row c with
    | some r => r.fcw
    | none => 0#32
  else 0#32

/-- The sum modulo `2^32` of the control words by which a run advances `PHASE[c]` (R27). -/
def phaseIncrements (c : ClientIx) : List HostAction → State → Word
  | [], _ => 0#32
  | a :: as, s =>
    match act a s with
    | .next t => phaseIncrement c a s + phaseIncrements c as t
    | _ => 0#32

/-- The oscillator sample an action makes client `c` see: `TAB` at the advanced phase (R130), if the action is an
accepted `PROCESS c`. -/
def oscillatorSample (c : ClientIx) (a : HostAction) (s : State) : List Entry :=
  if processesClient c a s then
    match s.ncoStep c with
    | some (lo, _) => [lo]
    | none => []
  else []

/-- The sequence of `lo` values client `c` sees in a run (R33). -/
def oscillatorSamples (c : ClientIx) : List HostAction → State → List Entry
  | [], _ => []
  | a :: as, s =>
    match act a s with
    | .next t => oscillatorSample c a s ++ oscillatorSamples c as t
    | _ => []

/-- The actions that may touch client `c`'s row or what it is computed from: reset, `INIT`, and the commands with
`CID = c` (R33). -/
def touchesClient (c : ClientIx) (a : HostAction) : Bool :=
  match a with
  | .rst => true
  | .cmd w =>
    match decode w with
    | .ok (.init _) => true
    | .ok (.setfreq cid _) => decide (cid = c)
    | .ok (.process cid _ _) => decide (cid = c)
    | .error _ => false

/-- The oscillator sample of the `n`-th `NCOSTEP` (counting from 0) of a client, executed on its own (R136). -/
def loAfter (c : ClientIx) : Nat → State → Option Entry
  | 0, s => (s.ncoStep c).map Prod.fst
  | n + 1, s =>
    match s.ncoStep c with
    | some (_, t) => loAfter c n t
    | none => none

/-! ## Traces -/

/-- How many responses a list of transfers holds. -/
def responseCount (tr : List Transfer) : Nat :=
  tr.countP fun x => match x with
    | .rsp _ => true
    | .evt _ => false

/-- How many `GAIN_ADAPTED` events (`KIND = 3`, 30_encoding.md R70) a list of transfers holds. -/
def gainEventCount (tr : List Transfer) : Nat :=
  tr.countP fun x => match x with
    | .rsp _ => false
    | .evt w => decide (w.extractLsb' 76 4 = 3#4)

end Sys2Proof.Machine
end

