-- ==== Sys2Proof/Certificates/Slice0/Obligations.lean ====
section
/-! DEFINITION. The statements for the provers. Each docstring names the rule of spec/ it formalises; a statement about a
choice of the model says so and names the log entry. -/

open Sys2Proof Sys2Proof.Machine

/-! ## Encoding and decoding -/

/-- R61 to R65, R74: decoding the word of a command gives the command back, for every command and every operand. -/
def Obligations.DecodeOfEncode : Prop := ∀ i : Instr, decode (encode i) = .ok i

/-- R61 to R65, R74: a word that decodes to a command is the one encoding of it; no bit of a legal word is dropped. -/
def Obligations.EncodeOfDecodedWord : Prop := ∀ (w : CmdWord) (i : Instr), decode w = .ok i → encode i = w

/-- R74: decoding, total on all words, with every field taken as a number from the word. -/
def Obligations.DecodeReadsTheFields : Prop := ∀ w : CmdWord,
  let opc : Nat := w.toNat / 2 ^ 60
  let cid : Nat := w.toNat / 2 ^ 52 % 2 ^ 8
  let rsv : Nat := w.toNat / 2 ^ 32 % 2 ^ 20
  let arg : Nat := w.toNat % 2 ^ 32
  let hi : Nat := w.toNat / 2 ^ 16 % 2 ^ 16
  let lo : Nat := w.toNat % 2 ^ 16
  (rsv ≠ 0 → ∃ e, decode w = .error e) ∧
  (rsv = 0 → opc = 1 → cid = 0 → ∃ srate, decode w = .ok (.init srate) ∧ srate.toNat = arg) ∧
  (rsv = 0 → opc = 1 → cid ≠ 0 → ∃ e, decode w = .error e) ∧
  (rsv = 0 → opc = 2 → ∃ c offs, decode w = .ok (.setfreq c offs) ∧ c.toNat = cid ∧
    offs.toInt = if arg < 2 ^ 31 then (arg : Int) else (arg : Int) - 2 ^ 32) ∧
  (rsv = 0 → opc = 3 → ∃ c i q, decode w = .ok (.process c i q) ∧ c.toNat = cid ∧
    (i.toInt = if hi < 2 ^ 15 then (hi : Int) else (hi : Int) - 2 ^ 16) ∧
    (q.toInt = if lo < 2 ^ 15 then (lo : Int) else (lo : Int) - 2 ^ 16)) ∧
  (rsv = 0 → opc ≠ 1 → opc ≠ 2 → opc ≠ 3 → ∃ e, decode w = .error e)

/-- R72: the three causes that make a word illegal; an illegal word is rejected with `ERR_ILLEGAL_CMD` (4) in every
state, with no write and no event, and every other word is a command. -/
def Obligations.IllegalWordsAreRejectedInEveryState : Prop := ∀ (w : CmdWord) (s : State),
  let opc : Nat := w.toNat / 2 ^ 60
  let cid : Nat := w.toNat / 2 ^ 52 % 2 ^ 8
  let rsv : Nat := w.toNat / 2 ^ 32 % 2 ^ 20
  let illegal := (opc = 0 ∨ 4 ≤ opc) ∨ rsv ≠ 0 ∨ (opc = 1 ∧ cid ≠ 0)
  (illegal → ∃ r : RspWord, r.toNat = opc * 2 ^ 60 + cid * 2 ^ 52 + 4 * 2 ^ 48 ∧
    act (.cmd w) s = .next { s with trace := s.trace ++ [.rsp r] }) ∧
  (¬ illegal → ∃ i, decode w = .ok i)

/-- Words of 95_test_vectors.md 2.1, written out there from the encodings of R63 to R65, decode to the commands they
stand for; the illegal ones to none. -/
def Obligations.WordsOfTheTestVectorsDecode : Prop :=
  decode 0x1000000000249F00#64 = .ok (.init 2400000#32) ∧
  decode 0x20000000000927C0#64 = .ok (.setfreq 0#8 600000#32) ∧
  decode 0x20300000FFFFFFFF#64 = .ok (.setfreq 3#8 (BitVec.ofInt 32 (-1))) ∧
  decode 0x3000000003E8FE0C#64 = .ok (.process 0#8 1000#16 (BitVec.ofInt 16 (-500))) ∧
  decode 0x3FF000007FFF8000#64 = .ok (.process 255#8 32767#16 (BitVec.ofInt 16 (-32768))) ∧
  decode 0x0000000000000000#64 = .error .reservedOpcode ∧
  decode 0x2008000000000001#64 = .error .reservedBits ∧
  decode 0x1010000000249F00#64 = .error .initWithClient

/-- R63, R64, R65: each row's mask and match select exactly the words of its command, with the operand values that the
rule gives. -/
def Obligations.OpcodeTableRowsSelectTheirCommands : Prop := ∀ w : CmdWord,
  (w &&& 0xFFFFFFFF00000000#64 = 0x1000000000000000#64 ↔ ∃ srate, decode w = .ok (.init srate)) ∧
  (w &&& 0xF00FFFFF00000000#64 = 0x2000000000000000#64 ↔ ∃ cid offs, decode w = .ok (.setfreq cid offs)) ∧
  (w &&& 0xF00FFFFF00000000#64 = 0x3000000000000000#64 ↔ ∃ cid i q, decode w = .ok (.process cid i q)) ∧
  (∀ srate, decode w = .ok (.init srate) → srate.toNat = w.toNat % 2 ^ 32) ∧
  (∀ cid offs, decode w = .ok (.setfreq cid offs) →
    cid.toNat = w.toNat / 2 ^ 52 % 2 ^ 8 ∧ offs.toInt % 2 ^ 32 = (w.toNat % 2 ^ 32 : Nat)) ∧
  (∀ cid i q, decode w = .ok (.process cid i q) →
    cid.toNat = w.toNat / 2 ^ 52 % 2 ^ 8 ∧ i.toInt % 2 ^ 16 = (w.toNat / 2 ^ 16 % 2 ^ 16 : Nat) ∧
      q.toInt % 2 ^ 16 = (w.toNat % 2 ^ 16 : Nat))

/-- R80: the worked encodings, and the response word of the last one. -/
def Obligations.WorkedEncodings : Prop :=
  encode (.init 2400000#32) = 0x1000000000249F00#64 ∧
  encode (.setfreq 0#8 558794#32) = 0x20000000000886CA#64 ∧
  encode (.setfreq 2#8 (BitVec.ofInt 32 (-600000))) = 0x20200000FFF6D840#64 ∧
  encode (.process 1#8 32767#16 0#16) = 0x301000007FFF0000#64 ∧
  encode (.process 0#8 1000#16 (BitVec.ofInt 16 (-500))) = 0x3000000003E8FE0C#64 ∧
  rspWord 3#4 0#8 .ok (BitVec.ofInt 16 32000 ++ BitVec.ofInt 16 (-16000)) = 0x300000007D00C180#64

/-- R43: in files a command or response is 8 bytes and an event 10 bytes, least significant first, so a command read
back from the bytes of its word is that command, and the rest of the stream is left. -/
def Obligations.CommandBytesReadBack : Prop :=
  (∀ (w : CmdWord) (rest : List (BitVec 8)), decodeBytes (bytesOfWord w ++ rest) = some (decode w, rest)) ∧
  (∀ w : BitVec 64, (bytesOfWord w).length = 8 ∧
    ∀ k < 8, ((bytesOfWord w)[k]?).map BitVec.toNat = some (w.toNat / 256 ^ k % 256)) ∧
  (∀ e : EvtWord, (bytesOfEvent e).length = 10 ∧
    ∀ k < 10, ((bytesOfEvent e)[k]?).map BitVec.toNat = some (e.toNat / 256 ^ k % 256))

/-- R75: an operand inside the stated range is encoded as the same number; outside it, there is no command. -/
def Obligations.AssemblerChecksOperandRanges : Prop :=
  (∀ srate : Int, 0 ≤ srate ∧ srate ≤ 4294967295 → ∃ w a, assemble (.init srate) = some w ∧
    decode w = .ok (.init a) ∧ (a.toNat : Int) = srate) ∧
  (∀ srate : Int, ¬(0 ≤ srate ∧ srate ≤ 4294967295) → assemble (.init srate) = none) ∧
  (∀ cid offs : Int, (0 ≤ cid ∧ cid ≤ 255) ∧ (-2147483648 ≤ offs ∧ offs ≤ 2147483647) →
    ∃ w c o, assemble (.setfreq cid offs) = some w ∧ decode w = .ok (.setfreq c o) ∧ (c.toNat : Int) = cid ∧
      o.toInt = offs) ∧
  (∀ cid offs : Int, ¬((0 ≤ cid ∧ cid ≤ 255) ∧ (-2147483648 ≤ offs ∧ offs ≤ 2147483647)) →
    assemble (.setfreq cid offs) = none) ∧
  (∀ cid i q : Int, (0 ≤ cid ∧ cid ≤ 255) ∧ (-32768 ≤ i ∧ i ≤ 32767) ∧ (-32768 ≤ q ∧ q ≤ 32767) →
    ∃ w c x y, assemble (.process cid i q) = some w ∧ decode w = .ok (.process c x y) ∧ (c.toNat : Int) = cid ∧
      x.toInt = i ∧ y.toInt = q) ∧
  (∀ cid i q : Int, ¬((0 ≤ cid ∧ cid ≤ 255) ∧ (-32768 ≤ i ∧ i ≤ 32767) ∧ (-32768 ≤ q ∧ q ≤ 32767)) →
    assemble (.process cid i q) = none)

/-! ## Steps -/

/-- R12, R24, R48: when the oldest pending host action is a word that decodes to `i`, a step takes it off the list and
is `exec i`. (The list of pending actions is the model's own, notes/assumptions/4.md.) -/
def Obligations.StepRunsTheDecodedCommand : Prop :=
  ∀ (s : State) (w : CmdWord) (rest : List HostAction) (i : Instr),
    s.pending = .cmd w :: rest → decode w = .ok i → step s = exec i { s with pending := rest }

/-- R210, R211: `rst` puts `INITED = 0` and `SHT = SHT_INIT`, keeps one row per client, and emits no event and no
response; with no action pending the block waits (the model's convention, notes/assumptions/4.md). What `SRATE` and the
rows hold after reset the spec does not say (notes/assumptions/3.md) and this statement does not either. -/
def Obligations.StepOnResetOrNothingPending : Prop :=
  (∀ (s : State) (rest : List HostAction), s.pending = .rst :: rest → ∃ t, step s = .next t ∧ t.inited = false ∧
    t.sht = s.cfg.shtInit ∧ t.clients.length = s.cfg.maxClients ∧ t.cfg = s.cfg ∧ t.pending = rest ∧
    t.trace = s.trace) ∧
  (∀ s : State, s.pending = [] → step s = .next s)

/-- R30, R210: after reset `INITED = 0` and `SHT = SHT_INIT`, under parameters in the ranges of R10, with every client
row present. -/
def Obligations.ResetIsProcessStart : Prop :=
  State.reset.inited = false ∧ State.reset.sht = State.reset.cfg.shtInit ∧ State.reset.cfg.Admissible ∧
    State.reset.clients.length = State.reset.cfg.maxClients

/-- R48, R215: the machine's steps on a list of pending host actions are those actions one after another, each to
completion, in order. -/
def Obligations.StepsTakeTheActionsInOrder : Prop := ∀ (acts rest : List HostAction) (s : State),
  s.pending = acts ++ rest → core.run acts.length s = runActions acts { s with pending := rest }

/-- R212: nothing is kept across reset except the design constants: whatever two blocks with the same parameters did
before, the same commands after a reset bring the same events and responses from both. -/
def Obligations.ResetForgetsEverything : Prop := ∀ (s1 s2 t1 t2 : State) (acts : List HostAction), s1.cfg = s2.cfg →
  runActions (.rst :: acts) s1 = .next t1 → runActions (.rst :: acts) s2 = .next t2 →
    t1.trace.drop s1.trace.length = t2.trace.drop s2.trace.length

/-! ## INIT -/

/-- R93: an `INIT` that is not rejected completes: it latches the rate, gives every client the control word of the
default offset and phase 0, sets `INITED`, leaves `SHT`, and answers `OK` with `DATA = 0` and no event. -/
def Obligations.InitCompletes : Prop := ∀ (s : State) (srate : Word), s.inited = false → srate ≠ 0#32 →
  ∃ t, exec (.init srate) s = .next t ∧ t.srate = srate ∧ t.inited = true ∧ t.sht = s.sht ∧
    t.clients.length = s.cfg.maxClients ∧
    (∀ c : Nat, c < s.cfg.maxClients →
      t.clients[c]? = some { fcw := fcw s.cfg.defaultOffsetHz.toInt srate.toNat, phase := 0#32 }) ∧
    t.trace = s.trace ++ [.rsp 0x1000000000000000#64]

/-- R92: the two rejections of `INIT`, in order. Nothing else changes, so after `ERR_BAD_CONFIG` (5) the block is still
`UNINIT` and an `INIT` with a rate that is not 0 succeeds. -/
def Obligations.InitRejectionsInOrder : Prop := ∀ (s : State) (srate : Word),
  (s.inited = true → exec (.init srate) s = .next { s with trace := s.trace ++ [.rsp 0x1003000000000000#64] }) ∧
  (s.inited = false → srate = 0#32 →
    exec (.init srate) s = .next { s with trace := s.trace ++ [.rsp 0x1005000000000000#64] } ∧
    ∀ rate : Word, rate ≠ 0#32 → ∃ t,
      exec (.init rate) { s with trace := s.trace ++ [.rsp 0x1005000000000000#64] } = .next t ∧ t.inited = true)

/-- The frame of `INIT` (R35, R93, R178): `SHT`, the parameters and the pending actions are unchanged, and one response
is appended; when rejected, no register changes. There is no memory. -/
def Obligations.InitFrame : Prop := ∀ (s t : State) (srate : Word), exec (.init srate) s = .next t →
  t.sht = s.sht ∧ t.cfg = s.cfg ∧ t.pending = s.pending ∧ (∃ r, t.trace = s.trace ++ [.rsp r]) ∧
    (s.inited = true ∨ srate = 0#32 → t.inited = s.inited ∧ t.srate = s.srate ∧ t.clients = s.clients)

/-! ## SETFREQ -/

/-- R112: a `SETFREQ` that is not rejected completes: `FCW[cid]` becomes `fcw(offs, SRATE)`, `PHASE[cid]` stays, the
events are `TUNE_REQ` with `offs + REF_FREQ_HZ` and, when the offset is not the default, `FREQ_CHANGED`, and the
response is `OK` with the new word. No other register is written. -/
def Obligations.SetfreqCompletes : Prop := ∀ (s : State) (cid : ClientIx) (offs : Word),
  s.WF → s.inited = true → cid.toNat < s.cfg.maxClients →
  ∃ t r, s.row cid = some r ∧ exec (.setfreq cid offs) s = .next t ∧
    t.row cid = some { fcw := fcw offs.toInt s.srate.toNat, phase := r.phase } ∧
    (∀ d : ClientIx, d ≠ cid → t.row d = s.row d) ∧
    t.inited = s.inited ∧ t.srate = s.srate ∧ t.sht = s.sht ∧
    t.trace = s.trace ++ [.evt (Event.tuneReq cid (offs.toInt + s.cfg.refFreqHz)).word] ++
      (if offs = s.cfg.defaultOffsetHz then [] else
        [.evt (Event.freqChanged cid offs (fcw offs.toInt s.srate.toNat)).word]) ++
      [.rsp (rspWord 2#4 cid .ok (fcw offs.toInt s.srate.toNat))]

/-- R113: the two rejections of `SETFREQ`, in order; nothing is written and nothing emitted but the response. No value
of `offs` is rejected. -/
def Obligations.SetfreqRejectionsInOrder : Prop := ∀ (s : State) (cid : ClientIx) (offs : Word),
  (s.inited = false → exec (.setfreq cid offs) s =
    .next { s with trace := s.trace ++ [.rsp (rspWord 2#4 cid .errNotInit 0#32)] }) ∧
  (s.inited = true → s.cfg.maxClients ≤ cid.toNat → exec (.setfreq cid offs) s =
    .next { s with trace := s.trace ++ [.rsp (rspWord 2#4 cid .errClientRange 0#32)] }) ∧
  (s.WF → s.inited = true → cid.toNat < s.cfg.maxClients → ∀ offs' : Word, ∃ t evs,
    exec (.setfreq cid offs') s = .next t ∧
      t.trace = s.trace ++ evs ++ [.rsp (rspWord 2#4 cid .ok (fcw offs'.toInt s.srate.toNat))])

/-- The frame of `SETFREQ` (R35, R114): no register but `FCW[cid]` changes; in particular every phase, `SHT`, `SRATE`,
`INITED` and every other row stay. There is no memory. -/
def Obligations.SetfreqFrame : Prop := ∀ (s t : State) (cid : ClientIx) (offs : Word),
  exec (.setfreq cid offs) s = .next t →
    t.cfg = s.cfg ∧ t.pending = s.pending ∧ t.inited = s.inited ∧ t.srate = s.srate ∧ t.sht = s.sht ∧
    t.clients.length = s.clients.length ∧ (∀ d : ClientIx, d ≠ cid → t.row d = s.row d) ∧
    (∀ d : ClientIx, (t.row d).map Client.phase = (s.row d).map Client.phase) ∧
    (∃ new, t.trace = s.trace ++ new)

/-- R45: `SETFREQ` is idempotent on state: executed twice in a row it leaves the registers of the first time. -/
def Obligations.SetfreqTwiceWritesTheSame : Prop := ∀ (s t u : State) (cid : ClientIx) (offs : Word),
  exec (.setfreq cid offs) s = .next t → exec (.setfreq cid offs) t = .next u → { u with trace := t.trace } = t

/-- R114: a retune is phase-continuous: the next `PROCESS` of the client adds the new word to the phase the old word
left. -/
def Obligations.RetuneKeepsThePhase : Prop :=
  ∀ (s : State) (cid : ClientIx) (offs : Word) (i q : Sample) (r : Client),
    s.WF → s.inited = true → cid.toNat < s.cfg.maxClients → s.row cid = some r →
    ∃ t, runActions [.cmd (encode (.setfreq cid offs)), .cmd (encode (.process cid i q))] s = .next t ∧
      t.row cid = some { fcw := fcw offs.toInt s.srate.toNat, phase := r.phase + fcw offs.toInt s.srate.toNat }

/-! ## The control word -/

/-- R111: `fcw` is the formula `round_ha(offs * 2^32, srate) mod 2^32`, spelled out in integers as the rule does, and
the rounded quotient is a nearest integer, a tie going away from zero. -/
def Obligations.ControlWordIsTheRoundedQuotient : Prop := ∀ (offs : Int) (srate : Nat), 1 ≤ srate →
  let n := offs * 4294967296
  let q := n.sign * (((2 * n.natAbs + srate) / (2 * srate) : Nat) : Int)
  ((fcw offs srate).toNat : Int) = q % 4294967296 ∧
    2 * (q * srate - n).natAbs ≤ srate ∧
    (2 * (q * srate - n).natAbs = srate → n.natAbs < (q * srate).natAbs)

/-- R116: a tie needs a rate of at least `2^33`, so for every rate of 32 bits none occurs, and any round-to-nearest
gives the same control word. -/
def Obligations.NoTieInTheControlWord : Prop := ∀ (offs : Int) (srate : Nat), 1 ≤ srate → srate < 2 ^ 33 →
  (∀ q : Int, 2 * (q * srate - offs * 4294967296).natAbs ≠ srate) ∧
  (∀ q : Int, 2 * (q * srate - offs * 4294967296).natAbs ≤ srate → fcw offs srate = BitVec.ofInt 32 q)

/-- R115: `offs` and `offs + m * SRATE` have the same control word for every integer `m`; `offs = SRATE` has the word 0;
`SRATE/2` and `-SRATE/2`, for an even rate, both have `0x8000_0000`. -/
def Obligations.AliasedOffsetsShareTheWord : Prop := ∀ (offs m : Int) (srate : Nat), 1 ≤ srate → srate < 2 ^ 32 →
  fcw (offs + m * srate) srate = fcw offs srate ∧ fcw srate srate = 0#32 ∧
  (∀ half : Nat, srate = 2 * half → fcw half srate = 0x80000000#32 ∧ fcw (-half) srate = 0x80000000#32)

/-- R20, R111: the word of a negative offset is the two's complement of the word of its magnitude. -/
def Obligations.NegatedOffsetNegatesTheWord : Prop := ∀ (offs : Int) (srate : Nat), 1 ≤ srate →
  fcw (-offs) srate = -(fcw offs srate)

/-- R119: the corner cases of the control word, every row of the rule's table and the rates below it. -/
def Obligations.ControlWordCornerCases : Prop :=
  [0, 1, -1, 1000, -1000, 75, 9375, 600000, -600000, 1199999, 1200000, -1200000, 2400000, 2400001, 3000000,
      2147483647, -2147483648, 558794].map (fun offs => fcw offs 2400000) =
    [0x00000000#32, 0x000006FE#32, 0xFFFFF902#32, 0x001B4E82#32, 0xFFE4B17E#32, 0x00020C4A#32, 0x01000000#32,
      0x40000000#32, 0xC0000000#32, 0x7FFFF902#32, 0x80000000#32, 0x80000000#32, 0x00000000#32, 0x000006FE#32,
      0x40000000#32, 0xC8EC1EE9#32, 0x3713DA19#32, 0x3B9ACD2F#32] ∧
  (∀ offs : Int, fcw offs 1 = 0#32) ∧
  fcw 1 3 = 0x55555555#32 ∧ fcw 2 3 = 0xAAAAAAAB#32 ∧ fcw (-1) 3 = 0xAAAAAAAB#32 ∧
  fcw 1 4294967295 = 1#32 ∧ fcw (-2147483648) 4294967295 = 0x7FFFFFFF#32

/-! ## NCOSTEP -/

/-- R130, R132, R133: `NCOSTEP` adds the control word to the phase modulo `2^32`, stores it, and returns the entry at
`floor(new phase / 2^16)`; it writes nothing else. -/
def Obligations.NcoStepAddsThenLooksUp : Prop := ∀ (s : State) (c : ClientIx) (r : Client), s.row c = some r →
  ∃ lo t r', s.ncoStep c = some (lo, t) ∧ t.row c = some r' ∧
    r'.phase.toNat = (r.phase.toNat + r.fcw.toNat) % 2 ^ 32 ∧ r'.fcw = r.fcw ∧
    lo.toInt = tabInt (r'.phase.toNat / 65536) ∧
    (∀ d : ClientIx, d ≠ c → t.row d = s.row d) ∧ { t with clients := s.clients } = s

/-- R136: for a fixed control word `w` the sequence of returned amplitudes repeats with period
`2^32 / gcd(w, 2^32)`. -/
def Obligations.OscillatorIsPeriodic : Prop := ∀ (s : State) (c : ClientIx) (r : Client), s.row c = some r →
  ∀ n : Nat, (loAfter c n s).isSome ∧ loAfter c (n + 2 ^ 32 / Nat.gcd r.fcw.toNat (2 ^ 32)) s = loAfter c n s

/-! ## PROCESS -/

/-- R142, R150: a `PROCESS` that is not rejected completes, with every stage written out: the oscillator step, the
exact products, the floor shift by the `SHT` of the start, the narrowing, and the adaptation with its event. -/
def Obligations.ProcessCompletes : Prop := ∀ (s : State) (cid : ClientIx) (i q : Sample) (r : Client),
  s.WF → s.inited = true → cid.toNat < s.cfg.maxClients → s.row cid = some r →
  let p := r.phase + r.fcw
  let lo := tabInt (p.toNat / 65536)
  let sh := s.sht.toNat
  let si := i.toInt * lo / 2 ^ sh
  let sq := q.toInt * lo / 2 ^ sh
  ∃ t, exec (.process cid i q) s = .next t ∧ t.row cid = some { fcw := r.fcw, phase := p } ∧
    (∀ d : ClientIx, d ≠ cid → t.row d = s.row d) ∧ t.inited = s.inited ∧ t.srate = s.srate ∧
    t.sht.toNat = (if 32767 < si ∧ sh < 15 then sh + 1 else sh) ∧
    t.trace = s.trace ++ (if 32767 < si ∧ sh < 15 then [.evt (Event.gainAdapted cid (BitVec.ofNat 4 (sh + 1))).word]
        else []) ++
      [.rsp (rspWord 3#4 cid .ok (BitVec.ofInt 16 si ++ BitVec.ofInt 16 sq))]

/-- R143: the two rejections of `PROCESS`, in order: no phase advances, nothing adapts, nothing is emitted but the
response with `DATA = 0`. -/
def Obligations.ProcessRejectionsInOrder : Prop := ∀ (s : State) (cid : ClientIx) (i q : Sample),
  (s.inited = false → exec (.process cid i q) s =
    .next { s with trace := s.trace ++ [.rsp (rspWord 3#4 cid .errNotInit 0#32)] }) ∧
  (s.inited = true → s.cfg.maxClients ≤ cid.toNat → exec (.process cid i q) s =
    .next { s with trace := s.trace ++ [.rsp (rspWord 3#4 cid .errClientRange 0#32)] }) ∧
  (s.WF → s.inited = true → cid.toNat < s.cfg.maxClients → ∀ i' q' : Sample, ∃ t evs data,
    exec (.process cid i' q') s = .next t ∧ t.trace = s.trace ++ evs ++ [.rsp (rspWord 3#4 cid .ok data)])

/-- The frame of `PROCESS` (R35): no register but `PHASE[cid]` and `SHT` changes; every control word, `SRATE`, `INITED`
and every other row stay, and `SHT` stays or rises by one. There is no memory but the table, which nothing writes. -/
def Obligations.ProcessFrame : Prop := ∀ (s t : State) (cid : ClientIx) (i q : Sample),
  exec (.process cid i q) s = .next t →
    t.cfg = s.cfg ∧ t.pending = s.pending ∧ t.inited = s.inited ∧ t.srate = s.srate ∧
    t.clients.length = s.clients.length ∧ (∀ d : ClientIx, d ≠ cid → t.row d = s.row d) ∧
    (∀ d : ClientIx, (t.row d).map Client.fcw = (s.row d).map Client.fcw) ∧
    (t.sht = s.sht ∨ t.sht.toNat = s.sht.toNat + 1) ∧ (∃ new, t.trace = s.trace ++ new)

/-- R132: the first `PROCESS` of a client after `INIT` reads `TAB[FCW[c] >>u 16]`, not `TAB[0]`, whatever commands other
than a `PROCESS` of that client come between the two, `r` being the client's row just before it; that row's word is the
one `INIT` wrote unless there is a `SETFREQ` of that client among them, and the word of a `SETFREQ` that comes last. -/
def Obligations.FirstProcessReadsTheAdvancedPhase : Prop :=
  ∀ (s : State) (srate : Word) (acts : List HostAction) (cid : ClientIx) (i q : Sample),
    s.WF → s.inited = false → srate ≠ 0#32 → cid.toNat < s.cfg.maxClients →
    noReset acts = true → acts.any (isProcessOf cid) = false →
    let before : List HostAction := .cmd (encode (.init srate)) :: acts
    let all : List HostAction := before ++ [.cmd (encode (.process cid i q))]
    ∃ (u t : State) (r : Client) (lo : Entry), runActions before s = .next u ∧ u.row cid = some r ∧ r.phase = 0#32 ∧
      runActions all s = .next t ∧ oscillatorSamples cid all s = [lo] ∧ lo.toInt = tabInt (r.fcw.toNat / 65536) ∧
      (acts.any (isSetfreqOf cid) = false → r.fcw = fcw s.cfg.defaultOffsetHz.toInt srate.toNat) ∧
      (∀ offs : Word, acts.getLast? = some (.cmd (encode (.setfreq cid offs))) → r.fcw = fcw offs.toInt srate.toNat)

/-- R144: the products lie in `[-2^30, 2^30]` and fit 33 bits; the ends are reached only by `-32768` against
`-32768` and against `+32768`; no product of a sample that is not negative exceeds `32767 * 32768`. -/
def Obligations.ProductsFitThirtyThreeBits : Prop := ∀ (x : Sample) (k : BitVec 16),
  let lo := tabRead k
  let p := mulLo x lo
  p = x.toInt * lo.toInt ∧ -1073741824 ≤ p ∧ p ≤ 1073741824 ∧ (BitVec.ofInt 33 p).toInt = p ∧
    (p = 1073741824 ↔ x.toInt = -32768 ∧ lo.toInt = -32768) ∧
    (p = -1073741824 ↔ x.toInt = -32768 ∧ lo.toInt = 32768) ∧
    (0 ≤ x.toInt → p ≤ 1073709056)

/-- R147, R148: the shifted value fits a sample, and is narrowed to itself, exactly when
`-32768 * 2^s <= ix <= 32768 * 2^s - 1`; at the peak `lo = +32768` exactly when `-2^s <= i <= 2^s - 1`. -/
def Obligations.NarrowingIsLosslessExactlyInRange : Prop :=
  (∀ (ix : Int) (s : Shift), (narrow (scale ix s)).toInt = scale ix s ↔
    -32768 * 2 ^ s.toNat ≤ ix ∧ ix ≤ 32768 * 2 ^ s.toNat - 1) ∧
  (∀ (x : Sample) (k : BitVec 16) (s : Shift), (tabRead k).toInt = 32768 →
    ((narrow (scale (mulLo x (tabRead k)) s)).toInt = scale (mulLo x (tabRead k)) s ↔
      -(2 : Int) ^ s.toNat ≤ x.toInt ∧ x.toInt ≤ 2 ^ s.toNat - 1))

/-- R158: the entry is 0 exactly when the new phase lies in `[0, 2^16)` or `[2^31, 2^31 + 2^16)`; a `PROCESS` there
answers `(0, 0)`, adapts nothing and emits no event, whatever the samples and the shift. -/
def Obligations.ZeroCrossingGivesSilence : Prop :=
  ∀ (s : State) (cid : ClientIx) (i q : Sample) (r : Client),
    s.WF → s.inited = true → cid.toNat < s.cfg.maxClients → s.row cid = some r →
    let p := (r.phase + r.fcw).toNat
    (tabInt (p / 65536) = 0 ↔ p < 2 ^ 16 ∨ (2 ^ 31 ≤ p ∧ p < 2 ^ 31 + 2 ^ 16)) ∧
    (tabInt (p / 65536) = 0 → ∃ t, exec (.process cid i q) s = .next t ∧ t.sht = s.sht ∧
      t.trace = s.trace ++ [.rsp (rspWord 3#4 cid .ok 0#32)])

/-- R160: `i = 32767`, `q = 0` with the oscillator at its positive peak: the shifted value exceeds 32767 exactly when
`SHT <= 14`; then `SHT` rises by exactly 1 and a `GAIN_ADAPTED` event precedes the response; at 15 neither. The
response carries the wrapped sample of the old shift. -/
def Obligations.PositivePeakRaisesTheShift : Prop := ∀ (s : State) (cid : ClientIx) (r : Client),
  s.WF → s.inited = true → cid.toNat < s.cfg.maxClients → s.row cid = some r →
  tabInt ((r.phase + r.fcw).toNat / 65536) = 32768 →
  let si : Int := 1073709056 / 2 ^ s.sht.toNat
  let rsp := rspWord 3#4 cid .ok (BitVec.ofInt 16 si ++ 0#16)
  (32767 < si ↔ s.sht.toNat ≤ 14) ∧
  ∃ t, exec (.process cid 32767#16 0#16) s = .next t ∧
    (s.sht.toNat ≤ 14 → t.sht.toNat = s.sht.toNat + 1 ∧
      t.trace = s.trace ++ [.evt (Event.gainAdapted cid t.sht).word, .rsp rsp]) ∧
    (s.sht.toNat = 15 → t.sht = s.sht ∧ t.trace = s.trace ++ [.rsp rsp])

/-- R157: at `SHT = 15` every shifted value has magnitude at most 32768, exactly one input still overflows
(`-32768` against `-32768`, delivered as `-32768`), and nothing adapts. -/
def Obligations.CeilingLeavesOneOverflow : Prop := ∀ (x : Sample) (k : BitVec 16),
  let si := scale (mulLo x (tabRead k)) 15#4
  (-32768 ≤ si) ∧ si ≤ 32768 ∧ adapts si 15#4 = false ∧
    ((narrow si).toInt ≠ si ↔ x.toInt = -32768 ∧ (tabRead k).toInt = -32768) ∧
    (x.toInt = -32768 → (tabRead k).toInt = -32768 → si = 32768 ∧ (narrow si).toInt = -32768)

/-- R155: only the I channel and only its positive side is inspected: two commands that differ only in `q` leave the
same registers and emit the same events, and a command whose shifted I value is not above 32767 leaves `SHT` and emits
no event: the ports carry its response only. -/
def Obligations.OnlyPositiveIDrivesAdaptation : Prop :=
  (∀ (s t t' : State) (cid : ClientIx) (i q q' : Sample),
    exec (.process cid i q) s = .next t → exec (.process cid i q') s = .next t' →
      t.inited = t'.inited ∧ t.srate = t'.srate ∧ t.sht = t'.sht ∧ t.clients = t'.clients ∧
        t.trace.dropLast = t'.trace.dropLast) ∧
  (∀ (s t : State) (cid : ClientIx) (i q : Sample) (r : Client), s.row cid = some r →
    i.toInt * tabInt ((r.phase + r.fcw).toNat / 65536) / 2 ^ s.sht.toNat ≤ 32767 →
    exec (.process cid i q) s = .next t → t.sht = s.sht ∧ ∃ rsp : RspWord, t.trace = s.trace ++ [.rsp rsp])

/-! ## Rejections, responses, events -/

/-- R178: a rejected command writes no state, emits no event, and answers with `DATA = 0`, sixteen zero bits and the
word's own `OPC` and `CID`. -/
def Obligations.RejectedCommandChangesNothing : Prop :=
  ∀ (w : CmdWord) (s t : State) (evs : List Transfer) (r : RspWord),
    act (.cmd w) s = .next t → t.trace = s.trace ++ evs ++ [.rsp r] → r.toNat / 2 ^ 48 % 2 ^ 4 ≠ 0 →
      evs = [] ∧ { t with trace := s.trace } = s ∧ r.toNat % 2 ^ 48 = 0 ∧ r.toNat / 2 ^ 52 = w.toNat / 2 ^ 52

/-- R181: a rejected command issued again in the state it left is rejected again with the same response. -/
def Obligations.RejectedCommandIsRejectedAgain : Prop :=
  ∀ (w : CmdWord) (s t : State) (evs : List Transfer) (r : RspWord),
    act (.cmd w) s = .next t → t.trace = s.trace ++ evs ++ [.rsp r] → r.toNat / 2 ^ 48 % 2 ^ 4 ≠ 0 →
      act (.cmd w) t = .next { t with trace := t.trace ++ [.rsp r] }

/-- R176, R177, R179, R180: every word, in every well-formed state, is answered with one status, the first cause that
applies: illegal word, then lifecycle, then operand; and with `OK` when none does. -/
def Obligations.FirstCauseIsReported : Prop := ∀ (w : CmdWord) (s : State), s.WF →
  let opc : Nat := w.toNat / 2 ^ 60
  let cid : Nat := w.toNat / 2 ^ 52 % 2 ^ 8
  let rsv : Nat := w.toNat / 2 ^ 32 % 2 ^ 20
  let arg : Nat := w.toNat % 2 ^ 32
  ∃ (t : State) (evs : List EvtWord) (r : RspWord), act (.cmd w) s = .next t ∧
    t.trace = s.trace ++ evs.map Transfer.evt ++ [.rsp r] ∧
    r.toNat / 2 ^ 48 % 2 ^ 4 =
      if (opc = 0 ∨ 4 ≤ opc) ∨ rsv ≠ 0 ∨ (opc = 1 ∧ cid ≠ 0) then 4
      else if opc = 1 then (if s.inited then 3 else if arg = 0 then 5 else 0)
      else if s.inited = false then 1
      else if s.cfg.maxClients ≤ cid then 2
      else 0

/-- R67, R78: every command, legal or not, produces its events, at most two, and then exactly one response, whose
`OPC` and `CID` are those of the word, whose status is 0 to 5 and whose bits `47:32` are 0. -/
def Obligations.OneResponsePerCommand : Prop := ∀ (w : CmdWord) (s t : State), act (.cmd w) s = .next t →
  ∃ (evs : List EvtWord) (r : RspWord), t.trace = s.trace ++ evs.map Transfer.evt ++ [.rsp r] ∧ evs.length ≤ 2 ∧
    r.toNat / 2 ^ 52 = w.toNat / 2 ^ 52 ∧ r.toNat / 2 ^ 48 % 2 ^ 4 ≤ 5 ∧ r.toNat / 2 ^ 32 % 2 ^ 16 = 0

/-- R70: every event a command emits has `KIND` 1, 2 or 3, four zero bits and the `CID` of the command; a reset emits
none. -/
def Obligations.EventsCarryKindAndClient : Prop :=
  (∀ (w : CmdWord) (s t : State) (e : EvtWord), act (.cmd w) s = .next t →
    .evt e ∈ t.trace.drop s.trace.length →
      1 ≤ e.toNat / 2 ^ 76 ∧ e.toNat / 2 ^ 76 ≤ 3 ∧ e.toNat / 2 ^ 72 % 2 ^ 4 = 0 ∧
        e.toNat / 2 ^ 64 % 2 ^ 8 = w.toNat / 2 ^ 52 % 2 ^ 8) ∧
  (∀ s t : State, act .rst s = .next t → t.trace = s.trace)

/-- R71: the payloads: of `TUNE_REQ` the sum in 64 bits, which never overflows for admissible parameters; of
`FREQ_CHANGED` the word above the offset; of `GAIN_ADAPTED` the new shift in the low four bits. -/
def Obligations.EventPayloads : Prop :=
  (∀ (cfg : Config) (cid : ClientIx) (offs : Word), cfg.Admissible →
    (Event.tuneReq cid (offs.toInt + cfg.refFreqHz)).word.toNat / 2 ^ 76 = 1 ∧
    ((Event.tuneReq cid (offs.toInt + cfg.refFreqHz)).word.extractLsb' 0 64).toInt = offs.toInt + cfg.refFreqHz) ∧
  (∀ (cid : ClientIx) (offs w : Word), (Event.freqChanged cid offs w).word.toNat / 2 ^ 76 = 2 ∧
    (Event.freqChanged cid offs w).word.toNat % 2 ^ 64 = w.toNat * 2 ^ 32 + offs.toNat) ∧
  (∀ (cid : ClientIx) (sht : Shift), (Event.gainAdapted cid sht).word.toNat / 2 ^ 76 = 3 ∧
    (Event.gainAdapted cid sht).word.toNat % 2 ^ 64 = sht.toNat)

/-! ## Invariants and whole-machine rules -/

/-- The invariant of the model (R10, R20, R22, R28): every step keeps the state well formed. -/
def Obligations.StepKeepsWellFormed : Prop := ∀ s t : State, s.WF → step s = .next t → t.WF

/-- The state after reset is well formed, for the parameters of `State.reset` and for every admissible choice. -/
def Obligations.ResetIsWellFormed : Prop :=
  State.reset.WF ∧ ∀ cfg : Config, cfg.Admissible → (State.resetOf cfg).WF

/-- R79, R221: the block is never stuck: from a well-formed state every step answers a next state, and a step that
takes a command answers it with one more response. -/
def Obligations.EveryStepAnswers : Prop := ∀ s : State, s.WF →
  SafeStep s ∧ ∀ w rest t, s.pending = .cmd w :: rest → step s = .next t →
    t.pending = rest ∧ responseCount t.trace = responseCount s.trace + 1

/-- R13: the parameters are no state of the block: no step changes them (the model carries them in `State`,
notes/assumptions/1.md). -/
def Obligations.ParametersNeverChange : Prop := ∀ s t : State, step s = .next t → t.cfg = s.cfg

/-- R25: `INITED` becomes 1 only by an `INIT` in state `UNINIT` with a rate that is not 0, and 0 only by reset. -/
def Obligations.OnlyInitAndResetWriteInited : Prop := ∀ (a : HostAction) (s t : State), act a s = .next t →
  t.inited ≠ s.inited →
    (t.inited = false ∧ a = .rst) ∨
    (t.inited = true ∧ ∃ srate, commandOf a = some (.init srate) ∧ srate ≠ 0#32 ∧ t.srate = srate)

/-- R22: the sample rate is written once per life: in a run without a reset, from a state in `RUN`, `SRATE` and
`INITED` never change. -/
def Obligations.SampleRateIsWrittenOnce : Prop := ∀ (acts : List HostAction) (s t : State),
  s.inited = true → noReset acts = true → runActions acts s = .next t → t.srate = s.srate ∧ t.inited = true

/-- R28, R152: in every run without a reset `SHT` never decreases and stays in `SHT_INIT .. 15`, and the number of
`GAIN_ADAPTED` events is exactly its rise. -/
def Obligations.ShiftOnlyGrowsWithinItsBounds : Prop := ∀ (acts : List HostAction) (s t : State),
  s.WF → noReset acts = true → runActions acts s = .next t →
    s.sht.toNat ≤ t.sht.toNat ∧ s.cfg.shtInit.toNat ≤ t.sht.toNat ∧ t.sht.toNat ≤ 15 ∧
    gainEventCount t.trace = gainEventCount s.trace + (t.sht.toNat - s.sht.toNat)

/-- R27: from the successful `INIT` onward, each `PHASE[c]` is the sum modulo `2^32` of the control words in force at
the client's accepted `PROCESS` commands, in any run without a reset. -/
def Obligations.PhaseIsTheSumOfIncrements : Prop :=
  ∀ (s t : State) (srate : Word) (acts : List HostAction) (c : ClientIx),
    s.WF → s.inited = false → srate ≠ 0#32 → c.toNat < s.cfg.maxClients → noReset acts = true →
    runActions (.cmd (encode (.init srate)) :: acts) s = .next t →
    ∃ s1 r, act (.cmd (encode (.init srate))) s = .next s1 ∧ t.row c = some r ∧
      r.phase = phaseIncrements c acts s1

/-- R33: what client `c`'s row holds in state `RUN` and the sequence of `lo` values it sees depend only on the commands
with `CID = c`, on `INIT` and on reset: two runs that agree on those, from states with the same `INITED` and, in state
`RUN`, the same rate and row of `c`, give the same sequence and end with the same `INITED` and, in state `RUN`, the same
row, whatever the other clients' rows, the shift and the other clients' commands are. In state `UNINIT`, where R30 gives
the rate and the rows no value, nothing is assumed of them and nothing said. -/
def Obligations.OscillatorsOfClientsAreIndependent : Prop :=
  ∀ (s1 s2 t1 t2 : State) (acts1 acts2 : List HostAction) (c : ClientIx),
    s1.WF → s2.WF → s1.cfg = s2.cfg → s1.inited = s2.inited →
    (s1.inited = true → s1.srate = s2.srate ∧ s1.row c = s2.row c) →
    acts1.filter (touchesClient c) = acts2.filter (touchesClient c) →
    runActions acts1 s1 = .next t1 → runActions acts2 s2 = .next t2 →
      t1.inited = t2.inited ∧ (t1.inited = true → t1.row c = t2.row c) ∧
        oscillatorSamples c acts1 s1 = oscillatorSamples c acts2 s2

/-! ## The Oscillator Table -/

/-- R95: every entry is the rounded value of the real sine: within less than one half of `32768 sin(2πk/65536)`
(`round_nearest` of R16). -/
def Obligations.TableIsTheRoundedSine : Prop := ∀ k : BitVec 16,
  |32768 * Real.sin (2 * Real.pi * k.toNat / 65536) - ((tabRead k).toInt : ℝ)| < 1 / 2

/-- R170: the table is what the reconstruction gives from the difference digits of R171, whose values are 0 to 4 with
the stated counts and which sum to 32768. -/
def Obligations.TableIsTheReconstruction : Prop :=
  tabInt 0 = 0 ∧ (∀ k < 16384, tabInt (k + 1) = tabInt k + diffDigit k) ∧
  (∀ k, 16385 ≤ k → k ≤ 32768 → tabInt k = tabInt (32768 - k)) ∧
  (∀ k, 32769 ≤ k → k ≤ 65535 → tabInt k = -tabInt (k - 32768)) ∧
  ((List.range 16384).map diffDigit).sum = 32768 ∧
  (List.range 5).map (fun d => ((List.range 16384).map diffDigit).count d) = [1675, 3548, 4559, 6306, 296]

/-- R97 items 2 to 4: half-wave antisymmetry, odd symmetry and the quarter-wave mirror, on the 17-bit entries. -/
def Obligations.TableSymmetries : Prop :=
  (∀ k : BitVec 16, (tabRead (k + 32768#16)).toInt = -(tabRead k).toInt) ∧
  (∀ k : BitVec 16, (tabRead (-k)).toInt = -(tabRead k).toInt) ∧
  (∀ k : BitVec 16, k.toNat ≤ 32768 → tabRead (32768#16 - k) = tabRead k)

/-- R97 item 5: the table rises to its peak at 16384, falls to its trough at 49152 and rises again. -/
def Obligations.TableRisesAndFalls : Prop :=
  (∀ j k : Nat, j ≤ k → k ≤ 16384 → tabInt j ≤ tabInt k) ∧
  (∀ j k : Nat, 16384 ≤ j → j ≤ k → k ≤ 49152 → tabInt k ≤ tabInt j) ∧
  (∀ j k : Nat, 49152 ≤ j → j ≤ k → k ≤ 65535 → tabInt j ≤ tabInt k)

/-- R97 items 1, 6 and 7: the entries lie in `[-32768, 32768]`, the only zeros are 0 and 32768, and the value
`+32768` stands at exactly `16327 .. 16441`, `-32768` at exactly `49095 .. 49209`. -/
def Obligations.TableZerosAndPeaks : Prop := ∀ k : BitVec 16,
  -32768 ≤ (tabRead k).toInt ∧ (tabRead k).toInt ≤ 32768 ∧
  ((tabRead k).toInt = 0 ↔ k.toNat = 0 ∨ k.toNat = 32768) ∧
  ((tabRead k).toInt = 32768 ↔ 16327 ≤ k.toNat ∧ k.toNat ≤ 16441) ∧
  ((tabRead k).toInt = -32768 ↔ 49095 ≤ k.toNat ∧ k.toNat ≤ 49209)

/-- R97 item 10: the checksums over all 65536 entries (but for the SHA-256, which is checked outside Lean). -/
def Obligations.TableChecksums : Prop :=
  ((List.range 65536).map tabInt).sum = 0 ∧
  ((List.range 65536).map fun k => (tabInt k).natAbs).sum = 1367130408 ∧
  ((List.range 65536).map fun k => (tabInt k).natAbs ^ 2).sum = 35184366959176 ∧
  ((List.range 65536).map fun k : Nat => (k : Int) * tabInt k).sum % 2 ^ 32 = 3484811264
end

