-- ==== Sys2Proof/Laws/Arith.lean ====
section
/-! SUPPORT. The arithmetic operations: what each answers, in terms of integers. -/

namespace Sys2Proof.Machine

/-- The arithmetic shift is the floor: the one integer `y` with `y * 2^k <= x < (y + 1) * 2^k`. -/
theorem asr_spec (x : Int) (k : Nat) : asr x k * 2 ^ k ≤ x ∧ x < (asr x k + 1) * 2 ^ k := by
  have h : (0 : Int) < 2 ^ k := by positivity
  refine ⟨Int.ediv_mul_le x h.ne', ?_⟩
  have := Int.lt_ediv_add_one_mul_self x h
  simpa [asr] using this

/-- The narrowed value is congruent to the value and lies in the range of a sample. -/
theorem narrow_toInt (x : Int) : (narrow x).toInt = (x + 32768) % 65536 - 32768 := by
  simp only [narrow, BitVec.toInt_ofInt, Int.bmod_def]
  omega

/-- A value in the range of a sample is narrowed to itself. -/
theorem narrow_toInt_of_range (x : Int) (h : -32768 ≤ x) (h2 : x ≤ 32767) : (narrow x).toInt = x := by
  rw [narrow_toInt]; omega

/-- For a rate that is not 0 the control word is R111's formula. -/
theorem fcw_eq (offs : Int) (srate : Nat) (h : srate ≠ 0) :
    fcw offs srate = BitVec.ofInt 32 (roundHalfAway (offs * 4294967296) srate) := by
  simp [fcw, h]

/-- `round_ha` of a number that is not negative. -/
theorem roundHalfAway_of_nonneg (n : Int) (d : Nat) (h : 0 ≤ n) :
    roundHalfAway n d = (2 * n + d) / (2 * d) := by
  rcases h.lt_or_eq with h | rfl
  · obtain ⟨m, rfl⟩ := Int.eq_ofNat_of_zero_le h.le
    simp [roundHalfAway, Int.sign_eq_one_of_pos h]
  · rcases Nat.eq_zero_or_pos d with rfl | hd
    · simp [roundHalfAway]
    · simp only [roundHalfAway, Int.sign_zero, Int.zero_mul]
      symm
      apply Int.ediv_eq_zero_of_lt <;> omega

/-- `round_ha` is odd. -/
theorem roundHalfAway_neg (n : Int) (d : Nat) : roundHalfAway (-n) d = -roundHalfAway n d := by
  simp [roundHalfAway, Int.sign_neg]

end Sys2Proof.Machine
end

