-- ==== Sys2Proof/Laws/Decode.lean ====
section
/-! SUPPORT. The fields of a command word as numbers, the fields of an encoded command, and the one lemma on what
`decode` can answer. -/

namespace Sys2Proof

/-! ## Fields as numbers -/

theorem opcField_toNat (w : CmdWord) : (opcField w).toNat = w.toNat / 2 ^ 60 := by
  simp [opcField, Nat.shiftRight_eq_div_pow]; omega

theorem cidField_toNat (w : CmdWord) : (cidField w).toNat = w.toNat / 2 ^ 52 % 2 ^ 8 := by
  simp [cidField, Nat.shiftRight_eq_div_pow]

theorem rsvField_toNat (w : CmdWord) : (rsvField w).toNat = w.toNat / 2 ^ 32 % 2 ^ 20 := by
  simp [rsvField, Nat.shiftRight_eq_div_pow]

theorem argField_toNat (w : CmdWord) : (argField w).toNat = w.toNat % 2 ^ 32 := by
  simp [argField]

theorem ismpField_toNat (w : CmdWord) : (ismpField w).toNat = w.toNat / 2 ^ 16 % 2 ^ 16 := by
  simp [ismpField, Nat.shiftRight_eq_div_pow]

theorem qsmpField_toNat (w : CmdWord) : (qsmpField w).toNat = w.toNat % 2 ^ 16 := by
  simp [qsmpField]

/-! ## Encoded commands -/

/-- The two samples of `PROCESS` side by side (R65). -/
theorem toNat_append_samples (x y : Sample) : (x ++ y : BitVec 32).toNat = x.toNat * 2 ^ 16 + y.toNat := by
  rw [BitVec.toNat_append, ← Nat.shiftLeft_add_eq_or_of_lt y.isLt, Nat.shiftLeft_eq]

/-- The number of an encoded command (R61). -/
theorem encode_toNat (i : Instr) :
    (encode i).toNat = (i.opc.toNat * 2 ^ 8 + i.cid.toNat) * 2 ^ 52 + i.arg.toNat := by
  unfold encode
  rw [BitVec.toNat_append, BitVec.toNat_append, BitVec.toNat_append, ← Nat.shiftLeft_add_eq_or_of_lt i.arg.isLt,
    ← Nat.shiftLeft_add_eq_or_of_lt (0#20).isLt, ← Nat.shiftLeft_add_eq_or_of_lt i.cid.isLt]
  simp [Nat.shiftLeft_eq]
  omega

@[simp] theorem opcField_encode (i : Instr) : opcField (encode i) = i.opc := by
  apply BitVec.eq_of_toNat_eq
  have h1 := i.opc.isLt; have h2 := i.cid.isLt; have h3 := i.arg.isLt
  rw [opcField_toNat, encode_toNat]; omega

@[simp] theorem cidField_encode (i : Instr) : cidField (encode i) = i.cid := by
  apply BitVec.eq_of_toNat_eq
  have h1 := i.opc.isLt; have h2 := i.cid.isLt; have h3 := i.arg.isLt
  rw [cidField_toNat, encode_toNat]; omega

@[simp] theorem rsvField_encode (i : Instr) : rsvField (encode i) = 0#20 := by
  apply BitVec.eq_of_toNat_eq
  have h1 := i.opc.isLt; have h2 := i.cid.isLt; have h3 := i.arg.isLt
  rw [rsvField_toNat, encode_toNat, BitVec.toNat_ofNat]; omega

@[simp] theorem argField_encode (i : Instr) : argField (encode i) = i.arg := by
  apply BitVec.eq_of_toNat_eq
  have h1 := i.opc.isLt; have h2 := i.cid.isLt; have h3 := i.arg.isLt
  rw [argField_toNat, encode_toNat]; omega

/-! ## What `decode` can answer -/

/-- A word that decodes has zero reserved bits, its command's operation code, and its command's operands in their
fields. -/
theorem decode_ok_cases (w : CmdWord) (i : Instr) (h : decode w = .ok i) :
    rsvField w = 0#20 ∧
      ((opcField w = 1#4 ∧ cidField w = 0#8 ∧ i = .init (argField w)) ∨
        (opcField w = 2#4 ∧ i = .setfreq (cidField w) (argField w)) ∨
        (opcField w = 3#4 ∧ i = .process (cidField w) (ismpField w) (qsmpField w))) := by
  unfold decode at h
  split at h
  · cases h
  · rename_i hr
    refine ⟨not_not.mp hr, ?_⟩
    split at h
    · split at h
      · exact .inl ⟨‹_›, ‹_›, (Except.ok.inj h).symm⟩
      · cases h
    · split at h
      · exact .inr (.inl ⟨‹_›, (Except.ok.inj h).symm⟩)
      · split at h
        · exact .inr (.inr ⟨‹_›, (Except.ok.inj h).symm⟩)
        · cases h

/-- The fields a word's response echoes are those of the command it decodes to (30_encoding.md R67). -/
theorem decode_ok_echo (w : CmdWord) (i : Instr) (h : decode w = .ok i) :
    i.opc = opcField w ∧ i.cid = cidField w := by
  obtain ⟨-, ⟨h1, h2, rfl⟩ | ⟨h1, rfl⟩ | ⟨h1, rfl⟩⟩ := decode_ok_cases w i h
  · exact ⟨h1.symm, h2.symm⟩
  · exact ⟨h1.symm, rfl⟩
  · exact ⟨h1.symm, rfl⟩

end Sys2Proof
end

