-- ==== Sys2Proof/Laws/State.lean ====
section
/-! SUPPORT. What each named update of the state does to each field: one lemma per field per update, all by `rfl`. -/

namespace Sys2Proof.Machine

variable (s : State)

/-! ## `State.setRow` -/

@[simp] theorem State.setRow_cfg (cid : ClientIx) (r : Client) : (s.setRow cid r).cfg = s.cfg := rfl
@[simp] theorem State.setRow_inited (cid : ClientIx) (r : Client) : (s.setRow cid r).inited = s.inited := rfl
@[simp] theorem State.setRow_srate (cid : ClientIx) (r : Client) : (s.setRow cid r).srate = s.srate := rfl
@[simp] theorem State.setRow_sht (cid : ClientIx) (r : Client) : (s.setRow cid r).sht = s.sht := rfl
@[simp] theorem State.setRow_clients (cid : ClientIx) (r : Client) : (s.setRow cid r).clients = s.clients.set cid.toNat r := rfl
@[simp] theorem State.setRow_pending (cid : ClientIx) (r : Client) : (s.setRow cid r).pending = s.pending := rfl
@[simp] theorem State.setRow_trace (cid : ClientIx) (r : Client) : (s.setRow cid r).trace = s.trace := rfl

/-! ## `State.emit` -/

@[simp] theorem State.emit_cfg (e : Event) : (s.emit e).cfg = s.cfg := rfl
@[simp] theorem State.emit_inited (e : Event) : (s.emit e).inited = s.inited := rfl
@[simp] theorem State.emit_srate (e : Event) : (s.emit e).srate = s.srate := rfl
@[simp] theorem State.emit_sht (e : Event) : (s.emit e).sht = s.sht := rfl
@[simp] theorem State.emit_clients (e : Event) : (s.emit e).clients = s.clients := rfl
@[simp] theorem State.emit_pending (e : Event) : (s.emit e).pending = s.pending := rfl
@[simp] theorem State.emit_trace (e : Event) : (s.emit e).trace = s.trace ++ [.evt e.word] := rfl

/-! ## `State.answer` -/

@[simp] theorem State.answer_cfg (opc : BitVec 4) (cid : ClientIx) (st : Status) (data : Word) : (s.answer opc cid st data).cfg = s.cfg := rfl
@[simp] theorem State.answer_inited (opc : BitVec 4) (cid : ClientIx) (st : Status) (data : Word) : (s.answer opc cid st data).inited = s.inited := rfl
@[simp] theorem State.answer_srate (opc : BitVec 4) (cid : ClientIx) (st : Status) (data : Word) : (s.answer opc cid st data).srate = s.srate := rfl
@[simp] theorem State.answer_sht (opc : BitVec 4) (cid : ClientIx) (st : Status) (data : Word) : (s.answer opc cid st data).sht = s.sht := rfl
@[simp] theorem State.answer_clients (opc : BitVec 4) (cid : ClientIx) (st : Status) (data : Word) : (s.answer opc cid st data).clients = s.clients := rfl
@[simp] theorem State.answer_pending (opc : BitVec 4) (cid : ClientIx) (st : Status) (data : Word) : (s.answer opc cid st data).pending = s.pending := rfl
@[simp] theorem State.answer_trace (opc : BitVec 4) (cid : ClientIx) (st : Status) (data : Word) : (s.answer opc cid st data).trace = s.trace ++ [.rsp (rspWord opc cid st data)] := rfl

/-! ## `State.respond` -/

@[simp] theorem State.respond_cfg (i : Instr) (data : Word) : (s.respond i data).cfg = s.cfg := rfl
@[simp] theorem State.respond_inited (i : Instr) (data : Word) : (s.respond i data).inited = s.inited := rfl
@[simp] theorem State.respond_srate (i : Instr) (data : Word) : (s.respond i data).srate = s.srate := rfl
@[simp] theorem State.respond_sht (i : Instr) (data : Word) : (s.respond i data).sht = s.sht := rfl
@[simp] theorem State.respond_clients (i : Instr) (data : Word) : (s.respond i data).clients = s.clients := rfl
@[simp] theorem State.respond_pending (i : Instr) (data : Word) : (s.respond i data).pending = s.pending := rfl
@[simp] theorem State.respond_trace (i : Instr) (data : Word) : (s.respond i data).trace = s.trace ++ [.rsp (rspWord i.opc i.cid .ok data)] := rfl

/-! ## `State.reject` -/

@[simp] theorem State.reject_cfg (opc : BitVec 4) (cid : ClientIx) (st : Status) : (s.reject opc cid st).cfg = s.cfg := rfl
@[simp] theorem State.reject_inited (opc : BitVec 4) (cid : ClientIx) (st : Status) : (s.reject opc cid st).inited = s.inited := rfl
@[simp] theorem State.reject_srate (opc : BitVec 4) (cid : ClientIx) (st : Status) : (s.reject opc cid st).srate = s.srate := rfl
@[simp] theorem State.reject_sht (opc : BitVec 4) (cid : ClientIx) (st : Status) : (s.reject opc cid st).sht = s.sht := rfl
@[simp] theorem State.reject_clients (opc : BitVec 4) (cid : ClientIx) (st : Status) : (s.reject opc cid st).clients = s.clients := rfl
@[simp] theorem State.reject_pending (opc : BitVec 4) (cid : ClientIx) (st : Status) : (s.reject opc cid st).pending = s.pending := rfl
@[simp] theorem State.reject_trace (opc : BitVec 4) (cid : ClientIx) (st : Status) : (s.reject opc cid st).trace = s.trace ++ [.rsp (rspWord opc cid st 0#32)] := rfl

/-! ## `State.afterReset` -/

@[simp] theorem State.afterReset_cfg : (s.afterReset).cfg = s.cfg := rfl
@[simp] theorem State.afterReset_inited : (s.afterReset).inited = false := rfl
@[simp] theorem State.afterReset_srate : (s.afterReset).srate = Config.unsetSrate := rfl
@[simp] theorem State.afterReset_sht : (s.afterReset).sht = s.cfg.shtInit := rfl
@[simp] theorem State.afterReset_clients : (s.afterReset).clients = (State.resetOf s.cfg).clients := rfl
@[simp] theorem State.afterReset_pending : (s.afterReset).pending = s.pending := rfl
@[simp] theorem State.afterReset_trace : (s.afterReset).trace = s.trace := rfl

/-! ## `State.initialise` -/

@[simp] theorem State.initialise_cfg (srate : Word) : (s.initialise srate).cfg = s.cfg := rfl
@[simp] theorem State.initialise_inited (srate : Word) : (s.initialise srate).inited = true := rfl
@[simp] theorem State.initialise_srate (srate : Word) : (s.initialise srate).srate = srate := rfl
@[simp] theorem State.initialise_sht (srate : Word) : (s.initialise srate).sht = s.sht := rfl
@[simp] theorem State.initialise_clients (srate : Word) : (s.initialise srate).clients = List.replicate s.cfg.maxClients { fcw := fcw s.cfg.defaultOffsetHz.toInt srate.toNat, phase := 0#32 } := rfl
@[simp] theorem State.initialise_pending (srate : Word) : (s.initialise srate).pending = s.pending := rfl
@[simp] theorem State.initialise_trace (srate : Word) : (s.initialise srate).trace = s.trace := rfl

/-! ## `State.row` -/

@[simp] theorem State.row_emit (c : ClientIx) (e : Event) : (s.emit e).row c = s.row c := rfl
@[simp] theorem State.row_answer (c : ClientIx) (opc : BitVec 4) (cid : ClientIx) (st : Status) (data : Word) :
    (s.answer opc cid st data).row c = s.row c := rfl
@[simp] theorem State.row_respond (c : ClientIx) (i : Instr) (data : Word) : (s.respond i data).row c = s.row c := rfl
@[simp] theorem State.row_reject (c : ClientIx) (opc : BitVec 4) (cid : ClientIx) (st : Status) :
    (s.reject opc cid st).row c = s.row c := rfl

end Sys2Proof.Machine
end

