-- ==== Sys2Proof/Laws/Ops.lean ====
section
/-! SUPPORT. For each shared operation, once, everything it can do; for `act`, the five things one host action can
do. Later proofs cite these instead of unfolding. -/

namespace Sys2Proof.Machine

variable (s t : State)

/-! ## Row access -/

theorem State.row_setRow_same (c : ClientIx) (r : Client) (h : c.toNat < s.clients.length) :
    (s.setRow c r).row c = some r := by
  simp [State.row, h]

theorem State.row_setRow_other (c d : ClientIx) (r : Client) (h : d ≠ c) : (s.setRow c r).row d = s.row d := by
  have : c.toNat ≠ d.toNat := fun e => h (BitVec.eq_of_toNat_eq e.symm)
  simp [State.row, List.getElem?_set_ne this]

/-- A client index below the length of the register file names a row. -/
theorem State.row_eq_some (c : ClientIx) (h : c.toNat < s.clients.length) : ∃ r, s.row c = some r :=
  ⟨s.clients[c.toNat], by simp [State.row, h]⟩

theorem State.lt_length_of_row (c : ClientIx) (r : Client) (h : s.row c = some r) : c.toNat < s.clients.length := by
  simp only [State.row, List.getElem?_eq_some_iff] at h
  exact h.1

/-! ## The checks -/

/-- A command with a client index is not rejected exactly in state `RUN` with an index below `MAX_CLIENTS`. -/
theorem rejectionOfClient_eq_none (cid : ClientIx) :
    rejectionOfClient cid s = none ↔ s.inited = true ∧ cid.toNat < s.cfg.maxClients := by
  cases h : s.inited <;> by_cases h2 : cid.toNat < s.cfg.maxClients <;>
    simp [rejectionOfClient, lifecycleRun, clientInRange, h, h2]

/-- What a rejected command with a client index reports: the lifecycle cause before the operand cause. -/
theorem rejectionOfClient_eq_some (cid : ClientIx) (st : Status) :
    rejectionOfClient cid s = some st ↔
      (s.inited = false ∧ st = .errNotInit) ∨
        (s.inited = true ∧ s.cfg.maxClients ≤ cid.toNat ∧ st = .errClientRange) := by
  cases h : s.inited <;> by_cases h2 : cid.toNat < s.cfg.maxClients <;>
    simp [rejectionOfClient, lifecycleRun, clientInRange, h, h2, eq_comm, Nat.not_le.mpr, Nat.not_lt.mp]

/-- `INIT` is not rejected exactly in state `UNINIT` with a rate that is not 0. -/
theorem rejectionOfInit_eq_none (srate : Word) :
    rejectionOfInit srate s = none ↔ s.inited = false ∧ srate ≠ 0#32 := by
  cases h : s.inited <;> by_cases h2 : srate = 0#32 <;> simp [rejectionOfInit, lifecycleUninit, h, h2]

/-- What a rejected `INIT` reports: the lifecycle cause before the operand cause. -/
theorem rejectionOfInit_eq_some (srate : Word) (st : Status) :
    rejectionOfInit srate s = some st ↔
      (s.inited = true ∧ st = .errAlreadyInit) ∨ (s.inited = false ∧ srate = 0#32 ∧ st = .errBadConfig) := by
  cases h : s.inited <;> by_cases h2 : srate = 0#32 <;>
    simp [rejectionOfInit, lifecycleUninit, h, h2, eq_comm]

/-! ## The oscillator step -/

/-- If `NCOSTEP` answers, it has advanced the client's phase by its control word and read the entry the new phase
selects. -/
theorem State.ncoStep_eq_some (c : ClientIx) (lo : Entry) :
    s.ncoStep c = some (lo, t) ↔
      ∃ r, s.row c = some r ∧ lo = tabRead (tableIndex (r.phase + r.fcw)) ∧
        t = s.setRow c { r with phase := r.phase + r.fcw } := by
  unfold State.ncoStep
  cases s.row c with
  | none => simp
  | some r => simp [eq_comm]

/-- `NCOSTEP` fails only where the register file has no such row. -/
theorem State.ncoStep_eq_none (c : ClientIx) : s.ncoStep c = none ↔ s.row c = none := by
  unfold State.ncoStep
  cases s.row c <;> simp

/-! ## Gain adaptation -/

/-- Stage 4 either raises the shift by one and reports it, or does nothing. -/
theorem State.adapt_cases (cid : ClientIx) (si : Int) :
    (adapts si s.sht = true ∧ s.adapt cid si =
        { s with sht := s.sht + 1#4, trace := s.trace ++ [.evt (Event.gainAdapted cid (s.sht + 1#4)).word] }) ∨
      (adapts si s.sht = false ∧ s.adapt cid si = s) := by
  unfold State.adapt
  cases h : adapts si s.sht
  · exact .inr ⟨rfl, rfl⟩
  · exact .inl ⟨rfl, rfl⟩

@[simp] theorem State.adapt_cfg (cid : ClientIx) (si : Int) : (s.adapt cid si).cfg = s.cfg := by
  unfold State.adapt; split <;> rfl
@[simp] theorem State.adapt_inited (cid : ClientIx) (si : Int) : (s.adapt cid si).inited = s.inited := by
  unfold State.adapt; split <;> rfl
@[simp] theorem State.adapt_srate (cid : ClientIx) (si : Int) : (s.adapt cid si).srate = s.srate := by
  unfold State.adapt; split <;> rfl
@[simp] theorem State.adapt_clients (cid : ClientIx) (si : Int) : (s.adapt cid si).clients = s.clients := by
  unfold State.adapt; split <;> rfl
@[simp] theorem State.adapt_pending (cid : ClientIx) (si : Int) : (s.adapt cid si).pending = s.pending := by
  unfold State.adapt; split <;> rfl

/-- The shift rises by exactly one, and only below `SHT_MAX`; so the 4-bit sum never wraps. -/
theorem State.adapt_sht_toNat (cid : ClientIx) (si : Int) :
    (s.adapt cid si).sht.toNat = s.sht.toNat + (if adapts si s.sht then 1 else 0) := by
  rcases s.adapt_cases cid si with ⟨h, e⟩ | ⟨h, e⟩
  · have : s.sht.toNat < 15 := by
      simp only [adapts, Bool.and_eq_true, decide_eq_true_eq] at h
      exact h.2
    rw [e]
    simp [h, BitVec.toNat_add]
    omega
  · rw [e]; simp [h]

/-! ## The events of `SETFREQ` -/

/-- `SETFREQ` announces `TUNE_REQ`, then `FREQ_CHANGED` if the offset is not the default; nothing else changes. -/
theorem State.announceFreq_eq (cid : ClientIx) (offs w : Word) :
    s.announceFreq cid offs w =
      { s with trace := s.trace ++ (.evt (Event.tuneReq cid (offs.toInt + s.cfg.refFreqHz)).word ::
          (if offs = s.cfg.defaultOffsetHz then [] else [.evt (Event.freqChanged cid offs w).word])) } := by
  unfold State.announceFreq
  by_cases h : offs = s.cfg.defaultOffsetHz <;> simp [h, State.emit]

/-! ## What one host action can do -/

/-- A command that `exec` answers with a next state was rejected, or had its own effect. -/
theorem exec_cases (i : Instr) (h : exec i s = .next t) :
    (∃ st, t = s.reject i.opc i.cid st) ∨
    (∃ srate, i = .init srate ∧ s.inited = false ∧ srate ≠ 0#32 ∧
      t = (s.initialise srate).respond i 0#32) ∨
    (∃ cid offs r, i = .setfreq cid offs ∧ s.inited = true ∧ cid.toNat < s.cfg.maxClients ∧ s.row cid = some r ∧
      t = ((s.setRow cid { r with fcw := fcw offs.toInt s.srate.toNat }).announceFreq cid offs
        (fcw offs.toInt s.srate.toNat)).respond i (fcw offs.toInt s.srate.toNat)) ∨
    (∃ cid x y r, i = .process cid x y ∧ s.inited = true ∧ cid.toNat < s.cfg.maxClients ∧ s.row cid = some r ∧
      t = ((s.setRow cid { r with phase := r.phase + r.fcw }).adapt cid
          (scale (mulLo x (tabRead (tableIndex (r.phase + r.fcw)))) s.sht)).respond i
        (narrow (scale (mulLo x (tabRead (tableIndex (r.phase + r.fcw)))) s.sht) ++
          narrow (scale (mulLo y (tabRead (tableIndex (r.phase + r.fcw)))) s.sht))) := by
  cases i with
  | init srate =>
    simp only [exec, execInit] at h
    split at h
    · exact .inl ⟨_, (Host.Outcome.next.inj h).symm⟩
    · rename_i hn
      have hn := (rejectionOfInit_eq_none s srate).mp hn
      exact .inr (.inl ⟨srate, rfl, hn.1, hn.2, (Host.Outcome.next.inj h).symm⟩)
  | setfreq cid offs =>
    simp only [exec, execSetfreq] at h
    split at h
    · exact .inl ⟨_, (Host.Outcome.next.inj h).symm⟩
    · rename_i hn
      have hn := (rejectionOfClient_eq_none s cid).mp hn
      split at h
      · cases h
      · rename_i r hr
        exact .inr (.inr (.inl ⟨cid, offs, r, rfl, hn.1, hn.2, hr, (Host.Outcome.next.inj h).symm⟩))
  | process cid x y =>
    simp only [exec, execProcess] at h
    split at h
    · exact .inl ⟨_, (Host.Outcome.next.inj h).symm⟩
    · rename_i hn
      have hn := (rejectionOfClient_eq_none s cid).mp hn
      split at h
      · cases h
      · rename_i lo s1 hs
        obtain ⟨r, hr, rfl, rfl⟩ := (State.ncoStep_eq_some s s1 cid lo).mp hs
        exact .inr (.inr (.inr ⟨cid, x, y, r, rfl, hn.1, hn.2, hr, (Host.Outcome.next.inj h).symm⟩))

/-- A host action that `act` answers with a next state: a reset, an illegal word rejected, or a command executed. -/
theorem act_cases (a : HostAction) (h : act a s = .next t) :
    (a = .rst ∧ t = s.afterReset) ∨
    (∃ w e, a = .cmd w ∧ decode w = .error e ∧ t = s.reject (opcField w) (cidField w) .errIllegalCmd) ∨
    (∃ w i, a = .cmd w ∧ decode w = .ok i ∧ exec i s = .next t) := by
  cases a with
  | rst => exact .inl ⟨rfl, (Host.Outcome.next.inj h).symm⟩
  | cmd w =>
    simp only [act, execWord] at h
    split at h
    · rename_i i hi
      exact .inr (.inr ⟨w, i, rfl, hi, h⟩)
    · rename_i e he
      exact .inr (.inl ⟨w, e, rfl, he, (Host.Outcome.next.inj h).symm⟩)

/-- A step takes the oldest pending action and performs it, or waits. -/
theorem step_eq : step s = match s.pending with
    | [] => .next s
    | a :: rest => act a { s with pending := rest } := by
  unfold step State.takeAction
  cases s.pending <;> rfl

/-! ## Output words as numbers -/

/-- The number of a response word (30_encoding.md R67). -/
theorem rspWord_toNat (opc : BitVec 4) (cid : ClientIx) (st : Status) (d : Word) :
    (rspWord opc cid st d).toNat =
      opc.toNat * 2 ^ 60 + cid.toNat * 2 ^ 52 + st.code.toNat * 2 ^ 48 + d.toNat := by
  unfold rspWord
  rw [BitVec.toNat_append, BitVec.toNat_append, BitVec.toNat_append, BitVec.toNat_append,
    ← Nat.shiftLeft_add_eq_or_of_lt d.isLt, ← Nat.shiftLeft_add_eq_or_of_lt (0#16).isLt,
    ← Nat.shiftLeft_add_eq_or_of_lt st.code.isLt, ← Nat.shiftLeft_add_eq_or_of_lt cid.isLt]
  simp [Nat.shiftLeft_eq]
  omega

/-- The number of an event word (30_encoding.md R70). -/
theorem Event.word_toNat (e : Event) :
    e.word.toNat = e.kind.toNat * 2 ^ 76 + e.client.toNat * 2 ^ 64 + e.payload.toNat := by
  unfold Event.word
  rw [BitVec.toNat_append, BitVec.toNat_append, BitVec.toNat_append,
    ← Nat.shiftLeft_add_eq_or_of_lt e.payload.isLt, ← Nat.shiftLeft_add_eq_or_of_lt e.client.isLt,
    ← Nat.shiftLeft_add_eq_or_of_lt (0#4).isLt]
  simp [Nat.shiftLeft_eq]
  omega

/-- The table index of a phase as a number: the phase divided by `2^16`, rounded down (42_nco_step.md R131). -/
theorem tableIndex_toNat (p : Word) : (tableIndex p).toNat = p.toNat / 65536 := by
  simp [tableIndex, Nat.shiftRight_eq_div_pow]
  have := p.isLt
  omega

/-! ## Steps and runs -/

theorem run_succ (M : Host.Core) (n : Nat) (x : M.State) : M.run (n + 1) x = match M.step x with
    | .next u => M.run n u
    | .fault f => .fault f
    | .refused r => .refused r := rfl

/-- Running one step more: step first. -/
theorem core_run_succ (n : Nat) : core.run (n + 1) s = match step s with
    | .next u => core.run n u
    | .fault f => .fault f
    | .refused r => .refused r := by
  have h := run_succ core n s
  cases hs : step s with
  | next u => have e : core.step s = .next u := hs; rw [e] at h; exact h
  | fault f => have e : core.step s = .fault f := hs; rw [e] at h; exact h
  | refused r => have e : core.step s = .refused r := hs; rw [e] at h; exact h

/-- What an action does depends on the actions pending behind it only in carrying them along. -/
theorem act_withPending (a : HostAction) (p : List HostAction) :
    act a { s with pending := p } = match act a s with
      | .next u => .next { u with pending := p }
      | .fault f => .fault f
      | .refused r => .refused r := by
  cases a with
  | rst => rfl
  | cmd w =>
    simp only [act, execWord]
    cases decode w with
    | error e => rfl
    | ok i =>
      cases i with
      | init r =>
        simp only [exec, execInit, show rejectionOfInit r { s with pending := p } = rejectionOfInit r s from rfl]
        cases rejectionOfInit r s <;> rfl
      | setfreq c o =>
        simp only [exec, execSetfreq, show rejectionOfClient c { s with pending := p } = rejectionOfClient c s from rfl,
          show ({ s with pending := p } : State).row c = s.row c from rfl]
        cases rejectionOfClient c s with
        | some _ => rfl
        | none =>
          cases s.row c with
          | none => rfl
          | some r => simp only [State.announceFreq_eq]; rfl
      | process c x y =>
        simp only [exec, execProcess, show rejectionOfClient c { s with pending := p } = rejectionOfClient c s from rfl,
          State.ncoStep, show ({ s with pending := p } : State).row c = s.row c from rfl]
        cases rejectionOfClient c s with
        | some _ => rfl
        | none =>
          cases s.row c with
          | none => rfl
          | some r =>
            simp only [State.adapt]
            split <;> split <;>
              first | rfl | (rename_i h1 h2; exact absurd h1 h2) | (rename_i h1 h2; exact absurd h2 h1)

/-- What an action does does not depend on what the ports have carried: it appends to it. -/
theorem act_withTrace (a : HostAction) (p : List Transfer) :
    act a { s with trace := p } = match act a { s with trace := [] } with
      | .next u => .next { u with trace := p ++ u.trace }
      | .fault f => .fault f
      | .refused r => .refused r := by
  cases a with
  | rst => simp [act, State.afterReset]
  | cmd w =>
    simp only [act, execWord]
    cases decode w with
    | error e => rfl
    | ok i =>
      cases i with
      | init r =>
        simp only [exec, execInit,
          show ∀ p, rejectionOfInit r { s with trace := p } = rejectionOfInit r s from fun _ => rfl]
        cases rejectionOfInit r s <;> rfl
      | setfreq c o =>
        simp only [exec, execSetfreq,
          show ∀ p, rejectionOfClient c { s with trace := p } = rejectionOfClient c s from fun _ => rfl,
          show ∀ p, ({ s with trace := p } : State).row c = s.row c from fun _ => rfl]
        cases rejectionOfClient c s with
        | some _ => rfl
        | none =>
          cases s.row c with
          | none => rfl
          | some r => simp only [State.announceFreq_eq]; simp [State.respond, State.answer, State.setRow]; rfl
      | process c x y =>
        simp only [exec, execProcess,
          show ∀ p, rejectionOfClient c { s with trace := p } = rejectionOfClient c s from fun _ => rfl,
          State.ncoStep, show ∀ p, ({ s with trace := p } : State).row c = s.row c from fun _ => rfl]
        cases rejectionOfClient c s with
        | some _ => rfl
        | none =>
          cases s.row c with
          | none => rfl
          | some r =>
            by_cases h : adapts (scale (mulLo x (tabRead (tableIndex (r.phase + r.fcw)))) s.sht) s.sht = true <;>
              simp [State.adapt, h, State.respond, State.answer, State.emit, State.setRow]

end Sys2Proof.Machine
end

