-- ==== Sys2Proof/Laws/PerInstr.lean ====
section
/-! SUPPORT. Families of statements about the syntax of each command, one lemma per constructor of `Instr`. -/

/-- The encoding of a command carries each of its parts in the field that R61 gives it, and the
word is legal (R63 to R65, R72). -/
def Sys2Proof.Laws.EncodedFields.Statement (i : Sys2Proof.Instr) : Prop :=
  Sys2Proof.opcField (Sys2Proof.encode i) = i.opc ∧ Sys2Proof.cidField (Sys2Proof.encode i) = i.cid ∧
    Sys2Proof.argField (Sys2Proof.encode i) = i.arg ∧ Sys2Proof.CmdWord.legal (Sys2Proof.encode i) = true

namespace Sys2Proof.Laws

theorem EncodedFields.init (srate : Word) : EncodedFields.Statement (.init srate) := by
  refine ⟨by simp, by simp, by simp, ?_⟩
  have h1 := opcField_encode (.init srate)
  have h2 := cidField_encode (.init srate)
  have h3 := rsvField_encode (.init srate)
  simp only [opcField, cidField, rsvField, Instr.opc, Instr.cid] at h1 h2 h3
  simp [CmdWord.legal, CmdWord.opcodeAssigned, CmdWord.reservedZero, CmdWord.initClientZero, h1, h2, h3]

theorem EncodedFields.setfreq (cid : ClientIx) (offs : Word) : EncodedFields.Statement (.setfreq cid offs) := by
  refine ⟨by simp, by simp, by simp, ?_⟩
  have h1 := opcField_encode (.setfreq cid offs)
  have h3 := rsvField_encode (.setfreq cid offs)
  simp only [opcField, rsvField, Instr.opc] at h1 h3
  simp [CmdWord.legal, CmdWord.opcodeAssigned, CmdWord.reservedZero, CmdWord.initClientZero, h1, h3]

theorem EncodedFields.process (cid : ClientIx) (i q : Sample) : EncodedFields.Statement (.process cid i q) := by
  refine ⟨by simp, by simp, by simp, ?_⟩
  have h1 := opcField_encode (.process cid i q)
  have h3 := rsvField_encode (.process cid i q)
  simp only [opcField, rsvField, Instr.opc] at h1 h3
  simp [CmdWord.legal, CmdWord.opcodeAssigned, CmdWord.reservedZero, CmdWord.initClientZero, h1, h3]

end Sys2Proof.Laws
end

