-- ==== Sys2Proof/Laws/Runs.lean ====
section
/-! SUPPORT. Runs taken apart: the first action, a first part, and what a run without reset says of its actions. -/

namespace Sys2Proof.Machine

variable {s t u : State} {a : HostAction} {as bs : List HostAction}

/-- A run that answers performed its first action, and then the rest. -/
theorem runActions_cons (h : runActions (a :: as) s = .next t) :
    ∃ u, act a s = .next u ∧ runActions as u = .next t := by
  simp only [runActions] at h
  split at h
  · exact ⟨_, ‹_›, h⟩
  · cases h
  · cases h

/-- Running two lists one after the other. -/
theorem runActions_append (h : runActions as s = .next u) : runActions (as ++ bs) s = runActions bs u := by
  induction as generalizing s with
  | nil => cases Host.Outcome.next.inj h; rfl
  | cons a as ih =>
    obtain ⟨v, h1, h2⟩ := runActions_cons h
    simp only [List.cons_append, runActions, h1]
    exact ih h2

/-- The oscillator samples of two lists run one after the other. -/
theorem oscillatorSamples_append (c : ClientIx) (h : runActions as s = .next u) :
    oscillatorSamples c (as ++ bs) s = oscillatorSamples c as s ++ oscillatorSamples c bs u := by
  induction as generalizing s with
  | nil => cases Host.Outcome.next.inj h; rfl
  | cons a as ih =>
    obtain ⟨v, h1, h2⟩ := runActions_cons h
    simp only [List.cons_append, oscillatorSamples, h1]
    rw [ih h2, List.append_assoc]

@[simp] theorem noReset_cons : noReset (a :: as) = true ↔ a ≠ .rst ∧ noReset as = true := by
  simp [noReset]

end Sys2Proof.Machine
end

