-- ==== Sys2Proof/Laws/Table.lean ====
section
/-! SUPPORT. The Oscillator Table: the data of R171 agrees with its own check column, so the lookup of the model is
the recurrence of R170. -/

namespace Sys2Proof.Machine

/-- R171 has 256 lines. -/
theorem digitRows_length : digitRows.length = 256 := by decide +kernel

/-- The digits of each line of R171 lead from the value before the line to the line's check value. -/
theorem rowStart_succ : ∀ r < 256, rowStart r + digitSum 64 (digitRows.getD r (0, 0)).1 = rowStart (r + 1) := by
  decide +kernel

theorem digitSum_zero (x : Nat) : digitSum 0 x = 0 := rfl

theorem digitSum_succ (n x : Nat) : digitSum (n + 1) x = x % 10 + digitSum n (x / 10) := rfl

/-- The recurrence of R170: `TAB[k+1] = TAB[k] + d[k]` on the first quarter. -/
theorem tabQuarter_succ (k : Nat) (h : k < 16384) : tabQuarter (k + 1) = tabQuarter k + diffDigit k := by
  have hr : k / 64 < 256 := by omega
  unfold tabQuarter diffDigit
  by_cases hj : k % 64 = 63
  · have e1 : (k + 1) / 64 = k / 64 + 1 := by omega
    have e2 : (k + 1) % 64 = 0 := by omega
    have := rowStart_succ (k / 64) hr
    rw [digitSum_succ] at this
    rw [e1, e2, hj, digitSum_zero]
    simp only [Nat.reduceSub, pow_zero, pow_one, Nat.div_one]
    omega
  · have e1 : (k + 1) / 64 = k / 64 := by omega
    have e2 : (k + 1) % 64 = k % 64 + 1 := by omega
    have e3 : 64 - (k % 64 + 1) = 63 - k % 64 := by omega
    have e4 : 64 - k % 64 = 63 - k % 64 + 1 := by omega
    rw [e1, e2, e3, e4, digitSum_succ, Nat.div_div_eq_div_mul, ← pow_succ]
    omega

/-- The table starts at 0 (R170, R97 item 1). -/
theorem tabQuarter_zero : tabQuarter 0 = 0 := by decide +kernel

/-- Every difference digit is one of `0 .. 9`; R170 says `0 .. 4`, which the data shows. -/
theorem diffDigit_lt (k : Nat) : diffDigit k < 10 := Nat.mod_lt _ (by decide)

/-- The first quarter rises from 0 to 32768. -/
theorem tabQuarter_le (k : Nat) (h : k ≤ 16384) : tabQuarter k ≤ 32768 := by
  have top : tabQuarter 16384 = 32768 := by decide +kernel
  have mono : ∀ n, k + n ≤ 16384 → tabQuarter k ≤ tabQuarter (k + n) := by
    intro n
    induction n with
    | zero => simp
    | succ n ih =>
      intro hn
      have := tabQuarter_succ (k + n) (by omega)
      have := ih (by omega)
      rw [← Nat.add_assoc]
      omega
  have := mono (16384 - k) (by omega)
  rwa [Nat.add_sub_cancel' h, top] at this

/-- Every entry lies in `[-32768, 32768]` (R97 item 6). -/
theorem tabInt_bounds (k : Nat) (h : k < 65536) : -32768 ≤ tabInt k ∧ tabInt k ≤ 32768 := by
  have half : ∀ m ≤ 32768, tabHalf m ≤ 32768 := by
    intro m hm
    unfold tabHalf
    split
    · exact tabQuarter_le m ‹_›
    · exact tabQuarter_le _ (by omega)
  unfold tabInt
  split
  · have := half k ‹_›
    omega
  · have := half (k - 32768) (by omega)
    omega

/-- The 17 bits of an entry hold the table's value exactly (R97 item 7). -/
theorem tabRead_toInt (k : BitVec 16) : (tabRead k).toInt = tabInt k.toNat := by
  have := tabInt_bounds k.toNat k.isLt
  rw [tabRead, BitVec.toInt_ofInt, Int.bmod_def]
  omega

/-! ## Sums over the first quarter, one line of R171 at a time -/

/-- The sum of `f k TAB[k]` over the `n` last digits of a line: `x` is the line's numeral, `v` the entry at `k`. -/
def walkDigits (f : Nat → Nat → Nat) : Nat → Nat → Nat → Nat → Nat
  | 0, _, _, _ => 0
  | n + 1, x, k, v => f k v + walkDigits f n x (k + 1) (v + x / 10 ^ n % 10)

/-- The sum of `f k TAB[k]` over the 64 indices of line `r`. -/
def rowSum (f : Nat → Nat → Nat) (r : Nat) : Nat :=
  walkDigits f 64 (digitRows.getD r (0, 0)).1 (64 * r) (rowStart r)

theorem walkDigits_eq (f : Nat → Nat → Nat) : ∀ n k : Nat, k < 16384 → k % 64 + n = 64 →
    walkDigits f n (digitRows.getD (k / 64) (0, 0)).1 k (tabQuarter k) =
      ((List.range n).map fun j => f (k + j) (tabQuarter (k + j))).sum := by
  intro n
  induction n with
  | zero => intros; rfl
  | succ n ih =>
    intro k hk hn
    rw [walkDigits, List.range_succ_eq_map]
    simp only [List.map_cons, List.map_map, List.sum_cons, Nat.add_zero, Function.comp_def]
    congr 1
    rcases Nat.eq_zero_or_pos n with rfl | hp
    · rfl
    · have := ih (k + 1) (by omega) (by omega)
      have e : diffDigit k = (digitRows.getD (k / 64) (0, 0)).1 / 10 ^ n % 10 := by
        rw [diffDigit]; congr 3; omega
      rw [show (k + 1) / 64 = k / 64 by omega, tabQuarter_succ k hk, e] at this
      rw [this]
      refine congrArg List.sum (List.map_congr_left fun j _ => ?_)
      rw [show k + 1 + j = k + (j + 1) by omega]

theorem rowSum_eq (f : Nat → Nat → Nat) (r : Nat) (h : r < 256) :
    rowSum f r = ((List.range 64).map fun j => f (64 * r + j) (tabQuarter (64 * r + j))).sum := by
  have h2 : 64 * r / 64 = r := by omega
  have h3 : tabQuarter (64 * r) = rowStart r := by
    unfold tabQuarter; rw [h2, Nat.mul_mod_right]; rfl
  rw [← walkDigits_eq f 64 (64 * r) (by omega) (by omega), rowSum, h2, h3]

theorem sum_range_mul (g : Nat → Nat) (m n : Nat) : ((List.range (m * n)).map g).sum =
    ((List.range n).map fun r => ((List.range m).map fun j => g (m * r + j)).sum).sum := by
  induction n with
  | zero => simp
  | succ n ih =>
    rw [Nat.mul_succ, List.range_add, List.map_append, List.sum_append, ih, List.range_succ, List.map_append,
      List.sum_append]
    simp [Function.comp_def]

/-- A sum over the first quarter of the table is the sum of its lines' sums, which the kernel evaluates. -/
theorem sum_tabQuarter (f : Nat → Nat → Nat) :
    ((List.range 16384).map fun k => f k (tabQuarter k)).sum = ((List.range 256).map (rowSum f)).sum := by
  have := sum_range_mul (fun k => f k (tabQuarter k)) 64 256
  rw [show 64 * 256 = 16384 from rfl] at this
  rw [this]
  exact congrArg List.sum (List.map_congr_left fun r hr => (rowSum_eq f r (List.mem_range.mp hr)).symm)

end Sys2Proof.Machine
end

