-- ==== Sys2Proof/Tests/Slice0.lean ====
section
/-! SUPPORT. Tests on fixed values, and for each statement that has hypotheses a witness that meets them. Expected
values are those of spec/ (95_test_vectors.md, the worked examples and corner-case tables of the rules), all under
`CFG_REF` (00_scope.md R11) unless a test says otherwise. -/

namespace Sys2Proof.Tests

open Sys2Proof.Machine

/-! ## Small states -/

/-- State `UNINIT` under `CFG_REF`. -/
def uninit : State :=
  { cfg := Config.reference, inited := false, srate := 0#32, sht := 10#4
    clients := List.replicate 4 { fcw := 0#32, phase := 0#32 }, pending := [], trace := [] }

/-- State `RUN` under `CFG_REF` with rate 2400000, gain shift `sht`, and `fcw`, `phase` in every row. -/
def running (sht : Shift) (fcw phase : Word) : State :=
  { uninit with inited := true, srate := 2400000#32, sht := sht
                clients := List.replicate 4 { fcw := fcw, phase := phase } }

/-- The next state, if there is one. -/
def nextOf : Host.Outcome State Fault Refusal → Option State
  | .next t => some t
  | _ => none

/-- What the ports carried in a step from a state with an empty trace. -/
def outputs (o : Host.Outcome State Fault Refusal) : Option (List Transfer) := (nextOf o).map State.trace

/-! ## WellFormed: one ill-formed word or line for each check -/

theorem test_wf_reserved_opcode :
    [0x0000000000000000#64, 0x4000000000000005#64, 0xF000000000000000#64].all
      (fun w => !CmdWord.opcodeAssigned w && !CmdWord.legal w) = true := by decide
theorem test_wf_reserved_bits :
    [0x2000000100000000#64, 0x3008000000000000#64].all (fun w => !CmdWord.reservedZero w && !CmdWord.legal w) = true := by
  decide
theorem test_wf_init_with_client :
    [0x1010000000249F00#64, 0x1FF0000000249F00#64].all (fun w => !CmdWord.initClientZero w && !CmdWord.legal w) = true := by
  decide
theorem test_wf_legal_words :
    [0x1000000000249F00#64, 0x2FF0000000000000#64, 0x3FF000007FFF8000#64].all CmdWord.legal = true := by decide
theorem test_wf_srate_range : [-1, 4294967296].all (fun x => !SourceLine.wellFormed (.init x)) = true := by decide
theorem test_wf_cid_range :
    [-1, 256].all (fun x => !SourceLine.wellFormed (.setfreq x 0) && !SourceLine.wellFormed (.process x 0 0)) = true := by
  decide
theorem test_wf_offs_range :
    [-2147483649, 2147483648].all (fun x => !SourceLine.wellFormed (.setfreq 0 x)) = true := by decide
theorem test_wf_sample_range :
    [-32769, 32768].all
      (fun x => !SourceLine.wellFormed (.process 0 x 0) && !SourceLine.wellFormed (.process 0 0 x)) = true := by decide
theorem test_wf_ends_of_ranges :
    [SourceLine.init 0, .init 4294967295, .setfreq 255 (-2147483648), .setfreq 0 2147483647,
      .process 255 (-32768) 32767, .process 0 32767 (-32768)].all SourceLine.wellFormed = true := by decide

/-! ## Decoding: words written bit by bit from R61 to R65 -/

/-- `OPC = 0001`, `CID = 0`, `RSV = 0`, `ARG = 2400000`. -/
theorem test_decode_init :
    decode 0b0001_00000000_00000000000000000000_00000000001001001001111100000000#64 = .ok (.init 2400000#32) := by decide
/-- `OPC = 0010`, `CID = 2`, `RSV = 0`, `ARG = -600000` in two's complement. -/
theorem test_decode_setfreq :
    decode 0b0010_00000010_00000000000000000000_11111111111101101101100001000000#64
      = .ok (.setfreq 2#8 (BitVec.ofInt 32 (-600000))) := by decide
/-- `OPC = 0011`, `CID = 1`, `RSV = 0`, `ISMP = 32767`, `QSMP = -2`. -/
theorem test_decode_process :
    decode 0b0011_00000001_00000000000000000000_0111111111111111_1111111111111110#64
      = .ok (.process 1#8 32767#16 (BitVec.ofInt 16 (-2))) := by decide
/-- 95_test_vectors.md P3, commands 9 to 13. -/
theorem test_decode_illegal :
    [0x0000000000000000#64, 0x4000000000000005#64, 0x3000000100010001#64, 0x1010000000249F00#64,
      0x3FF0000100010001#64].all (fun w => (decode w).toOption.isNone) = true := by decide
theorem test_decodeTableWord :
    decodeTableWord 64 0x1000000000249F00 = some (.init 2400000#32) ∧ decodeTableWord 64 0x4000000000000000 = none := by
  decide
/-- R43: the word of `INIT 2400000` as bytes, least significant first. -/
theorem test_decode_bytes :
    (decodeBytes [0x00#8, 0x9F#8, 0x24#8, 0#8, 0#8, 0#8, 0#8, 0x10#8, 0x55#8]).map (fun r => (r.1.toOption, r.2))
      = some (some (.init 2400000#32), [0x55#8]) := by decide

/-! ## Text (R75, R76) -/

theorem test_read_line :
    assembleLine ['S', 'E', 'T', 'F', 'R', 'E', 'Q', ' ', '2', ',', ' ', '-', '6', '0', '0', '0', '0', '0', ' ', ';', 'x']
      = some 0x20200000FFF6D840#64 := by decide
theorem test_read_line_out_of_range :
    assembleLine ['P', 'R', 'O', 'C', 'E', 'S', 'S', ' ', '2', '5', '6', ',', '0', ',', '0'] = none := by decide
theorem test_read_illegal_word :
    assembleLine ['.', 'w', 'o', 'r', 'd', ' ', '0', 'x', '4', '0', '0', '0', '0', '0', '0', '0', '0', '0', '0', '0', '0',
      '0', '0', '5'] = some 0x4000000000000005#64 := by decide
/-- The model's choices of notes/assumptions/11.md: `_` at the end and doubled groups, a line with a comment only is no
command. -/
theorem test_read_choices :
    readNumeral 10 ['5', '_'] = some 5 ∧ readNumeral 10 ['1', '_', '_', '0'] = some 10 ∧ readNumeral 10 ['_', '5'] = none ∧
      assembleLine [' ', ';', 'x'] = none ∧ assembleLine [] = none := by decide
/-- 95_test_vectors.md P1: `-> OK i_out=32000 q_out=-16000`. -/
theorem test_text_of_response :
    textOfTransfer (.rsp 0x300000007D00C180#64) = some ['-', '>', ' ', 'O', 'K', ' ', 'i', '_', 'o', 'u', 't', '=', '3',
      '2', '0', '0', '0', ' ', 'q', '_', 'o', 'u', 't', '=', '-', '1', '6', '0', '0', '0'] := by decide

/-! ## The table -/

/-- R97 items 8 and 9. -/
theorem test_table_anchors :
    [0, 1, 2, 3, 4, 5, 10, 100, 1000, 65535, 32769, 32767, 4096, 8191, 8192, 8193, 10923, 16326, 16442, 24576, 40960,
      57344].map tabInt
      = [0, 3, 6, 9, 13, 16, 31, 314, 3137, -3, -3, 3, 12540, 23168, 23170, 23173, 28378, 32767, 32767, 23170, -23170,
        -23170] := by decide +kernel
/-- R172, `T = 16`. -/
theorem test_small_table :
    (List.range 16).map (smallTable 4) = [0, 12540, 23170, 30274, 32768, 30274, 23170, 12540, 0, -12540, -23170, -30274,
      -32768, -30274, -23170, -12540] := by decide +kernel

/-! ## Arithmetic -/

/-- R146: `28114 >>a 10 = 27`, `-28114 >>a 10 = -28`, `-3 >>a 10 = -1`; R147: the wrapped values of 32768, 1048544,
-524272. -/
theorem test_scale_and_narrow :
    [scale 28114 10#4, scale (-28114) 10#4, scale (-3) 10#4, (narrow 32768).toInt, (narrow 1048544).toInt,
      (narrow (-524272)).toInt] = [27, -28, -1, -32768, -32, 16] := by decide
/-- R137: the wrap by one, the carry into the index field, the entry at the peak. -/
theorem test_ncostep :
    ((running 10#4 1#32 0xFFFFFFFF#32).ncoStep 0#8).map (fun r => (r.1.toInt, (r.2.row 0#8).map Client.phase))
        = some (0, some 0#32) ∧
      ((running 10#4 1#32 0x0000FFFF#32).ncoStep 1#8).map (fun r => r.1.toInt) = some 3 ∧
      ((running 10#4 1#32 0x3FFFFFFF#32).ncoStep 3#8).map (fun r => r.1.toInt) = some 32768 := by decide +kernel

/-! ## One step of each command -/

/-- R93, worked example; R102 (e) for the default offset 600000. -/
theorem test_init :
    outputs (exec (.init 2400000#32) uninit) = some [.rsp 0x1000000000000000#64] ∧
      (nextOf (exec (.init 2400000#32) { uninit with cfg := { Config.reference with defaultOffsetHz := 600000#32 } })).map
        State.clients = some (List.replicate 4 { fcw := 0x40000000#32, phase := 0#32 }) := by decide +kernel
/-- R92: `ERR_ALREADY_INIT` before `ERR_BAD_CONFIG` (R179). -/
theorem test_init_rejected :
    outputs (exec (.init 0#32) (running 10#4 0#32 0#32)) = some [.rsp 0x1003000000000000#64] ∧
      outputs (exec (.init 0#32) uninit) = some [.rsp 0x1005000000000000#64] := by decide +kernel
/-- R112, worked example: events, then the response. -/
theorem test_setfreq :
    outputs (exec (.setfreq 0#8 558794#32) (running 10#4 0#32 7#32))
      = some [.evt 0x100000000000_00A11D4A#80, .evt 0x20003B9ACD2F000886CA#80, .rsp 0x200000003B9ACD2F#64] := by
  decide +kernel
/-- R113, in order, and the default offset, which brings `TUNE_REQ` only (95_test_vectors.md P3, command 20). -/
theorem test_setfreq_rejected_or_default :
    outputs (exec (.setfreq 255#8 1000#32) uninit) = some [.rsp 0x2FF1000000000000#64] ∧
      outputs (exec (.setfreq 4#8 1000#32) (running 10#4 0#32 0#32)) = some [.rsp 0x2042000000000000#64] ∧
      outputs (exec (.setfreq 2#8 0#32) (running 10#4 0#32 0#32))
        = some [.evt 0x10020000000000989680#80, .rsp 0x2020000000000000#64] := by decide +kernel
/-- R142, worked example. -/
theorem test_process :
    outputs (exec (.process 0#8 1000#16 (BitVec.ofInt 16 (-500))) (running 10#4 0x40000000#32 0#32))
        = some [.rsp 0x300000007D00C180#64] ∧
      (nextOf (exec (.process 0#8 1000#16 (BitVec.ofInt 16 (-500))) (running 10#4 0x40000000#32 0#32))).bind
        (fun t => (t.row 0#8).map Client.phase) = some 0x40000000#32 := by decide +kernel
/-- R160 under `CFG_REF`: the sample that overflows is delivered wrapped and `SHT` becomes 11; at 15 nothing adapts. -/
theorem test_process_adapts :
    outputs (exec (.process 3#8 32767#16 0#16) (running 10#4 0x40000000#32 0#32))
        = some [.evt 0x3003000000000000000B#80, .rsp 0x30300000FFE00000#64] ∧
      outputs (exec (.process 0#8 0x8000#16 0x8000#16) (running 15#4 0xC0000000#32 0#32))
        = some [.rsp 0x3000000080008000#64] := by decide +kernel
/-- R180, R67: an illegal word is echoed bit for bit. -/
theorem test_illegal_word : outputs (act (.cmd 0x3FF0000100010001#64) uninit) = some [.rsp 0x3FF4000000000000#64] := by
  decide +kernel
/-- R210: `INITED = 0`, `SHT = SHT_INIT`, no output. -/
theorem test_reset :
    (nextOf (act .rst (running 15#4 1#32 2#32))).map (fun t => (t.inited, t.sht, t.trace)) = some (false, 10#4, []) := by
  decide
/-- The step after `withFetchWord` runs the word. -/
theorem test_withFetchWord :
    (nextOf (step (uninit.withFetchWord 64 0x1000000000249F00))).map (fun t => (t.inited, t.srate, t.pending))
      = some (true, 2400000#32, []) := by decide +kernel
theorem test_withFetchWord_reset :
    (nextOf (step (State.reset.withFetchWord 64 0x1000000000249F00))).map (fun t => (t.inited, t.srate, t.pending))
      = some (true, 2400000#32, []) := by rfl

/-! ## Witnesses: the hypotheses of each statement can be met, clause by clause, at the ends of the ranges -/

theorem witness_EncodeOfDecodedWord : decode 0x3FF000007FFF8000#64 = .ok (.process 255#8 0x7FFF#16 0x8000#16) := by decide
/-- For each of the six clauses two words that meet it, as (word, rsv = 0, opc, cid). -/
theorem witness_DecodeReadsTheFields :
    ([0x2000000100000000, 0x3008000000000000, 0x1000000000000000, 0x10000000FFFFFFFF, 0x1010000000000000,
      0x1FF0000000000000, 0x2000000080000000, 0x2FF000007FFFFFFF, 0x300000007FFF8000, 0x3FF0000080007FFF,
      0x0FF0000000000000, 0x4000000000000000, 0xF000000000000000] : List Nat).map
        (fun w => (decide (w / 2 ^ 32 % 2 ^ 20 = 0), w / 2 ^ 60, w / 2 ^ 52 % 2 ^ 8))
      = [(false, 2, 0), (false, 3, 0), (true, 1, 0), (true, 1, 0), (true, 1, 1), (true, 1, 255), (true, 2, 0),
        (true, 2, 255), (true, 3, 0), (true, 3, 255), (true, 0, 255), (true, 4, 0), (true, 15, 0)] := by decide
/-- Illegal words, one at each end of each cause, and words that are not. -/
theorem witness_IllegalWordsAreRejectedInEveryState :
    ([0x0FF0000000000000, 0x4000000000000000, 0xF000000000000000, 0x2000000100000000, 0x2008000000000000,
      0x1010000000000000, 0x1FF0000000000000, 0x1000000000000000, 0x2FF0000000000000, 0x3000000000000000] :
        List Nat).map (fun w => decide ((w / 2 ^ 60 = 0 ∨ 4 ≤ w / 2 ^ 60) ∨ w / 2 ^ 32 % 2 ^ 20 ≠ 0 ∨
          (w / 2 ^ 60 = 1 ∧ w / 2 ^ 52 % 2 ^ 8 ≠ 0)))
      = [true, true, true, true, true, true, true, false, false, false] := by decide
theorem witness_OpcodeTableRowsSelectTheirCommands :
    0x1000000000249F00#64 &&& 0xFFFFFFFF00000000#64 = 0x1000000000000000#64 ∧
      decode 0x1000000000249F00#64 = .ok (.init 0x249F00#32) ∧
      0x20200000FFF6D840#64 &&& 0xF00FFFFF00000000#64 = 0x2000000000000000#64 ∧
      decode 0x20200000FFF6D840#64 = .ok (.setfreq 2#8 0xFFF6D840#32) ∧
      0x3FF000007FFF8000#64 &&& 0xF00FFFFF00000000#64 = 0x3000000000000000#64 ∧
      decode 0x3FF000007FFF8000#64 = .ok (.process 255#8 0x7FFF#16 0x8000#16) := by decide
theorem witness_CommandBytesReadBack : 0 < 8 ∧ 7 < 8 ∧ 0 < 10 ∧ 9 < 10 := by decide
/-- Both ends of every range, and the first numbers outside them. -/
theorem witness_AssemblerChecksOperandRanges :
    [0, 4294967295, -1, 4294967296].map srateInRange = [true, true, false, false] ∧
      [0, 255, -1, 256].map cidInRange = [true, true, false, false] ∧
      [-2147483648, 2147483647, -2147483649, 2147483648].map offsInRange = [true, true, false, false] ∧
      [-32768, 32767, -32769, 32768].map sampleInRange = [true, true, false, false] := by decide

theorem witness_StepRunsTheDecodedCommand :
    (uninit.withFetchWord 64 0x1000000000249F00).pending = .cmd 0x1000000000249F00#64 :: [] ∧
      decode 0x1000000000249F00#64 = .ok (.init 2400000#32) := by decide
theorem witness_StepOnResetOrNothingPending :
    ({ uninit with pending := [.rst, .rst] } : State).pending = .rst :: [.rst] ∧ uninit.pending = [] := by decide
theorem witness_StepsTakeTheActionsInOrder :
    ({ uninit with pending := [.cmd 0x1000000000249F00#64, .rst] } : State).pending
      = [.cmd 0x1000000000249F00#64] ++ [.rst] := by decide
theorem witness_ResetForgetsEverything :
    uninit.cfg = (running 15#4 1#32 2#32).cfg ∧ uninit ≠ running 15#4 1#32 2#32 ∧
      (∃ t, runActions (.rst :: [.cmd 0x1000000000249F00#64, .cmd 0x3000000000010001#64]) uninit = .next t) ∧
      ∃ t, runActions (.rst :: [.cmd 0x1000000000249F00#64, .cmd 0x3000000000010001#64]) (running 15#4 1#32 2#32)
        = .next t := ⟨by decide, by decide, ⟨_, rfl⟩, _, rfl⟩

theorem witness_InitCompletes :
    uninit.inited = false ∧ 1#32 ≠ 0#32 ∧ 0xFFFFFFFF#32 ≠ 0#32 ∧ 0 < uninit.cfg.maxClients ∧
      3 < uninit.cfg.maxClients := by decide
theorem witness_InitRejectionsInOrder :
    (running 10#4 0#32 0#32).inited = true ∧ uninit.inited = false ∧ 1#32 ≠ 0#32 ∧ 0xFFFFFFFF#32 ≠ 0#32 := by decide
/-- A successful and a rejected `INIT` answer a next state. -/
theorem witness_InitFrame :
    (∃ t, exec (.init 1#32) uninit = .next t) ∧ (∃ t, exec (.init 0#32) uninit = .next t) ∧
      ∃ t, exec (.init 1#32) (running 10#4 0#32 0#32) = .next t := ⟨⟨_, rfl⟩, ⟨_, rfl⟩, ⟨_, rfl⟩⟩

/-- The premises of the statements about accepted commands, for the first and the last client, at both ends of the
shift, with a row. -/
theorem witness_accepted :
    (running 10#4 0#32 0#32).WF ∧ (running 15#4 0x40000000#32 0#32).WF ∧ (running 10#4 0#32 0#32).inited = true ∧
      (running 15#4 0x40000000#32 0#32).inited = true ∧ (0#8).toNat < Config.reference.maxClients ∧
      (3#8).toNat < Config.reference.maxClients ∧
      (running 15#4 0x40000000#32 0#32).row 0#8 = some { fcw := 0x40000000#32, phase := 0#32 } ∧
      (running 15#4 0x40000000#32 0#32).row 3#8 = some { fcw := 0x40000000#32, phase := 0#32 } := by decide
theorem witness_SetfreqCompletes :
    (running 10#4 0#32 0#32).WF ∧ (running 10#4 0#32 0#32).inited = true ∧
      (3#8).toNat < (running 10#4 0#32 0#32).cfg.maxClients ∧ 0#8 ≠ 3#8 := by decide
theorem witness_SetfreqRejectionsInOrder :
    uninit.inited = false ∧ (running 10#4 0#32 0#32).inited = true ∧
      (running 10#4 0#32 0#32).cfg.maxClients ≤ (4#8).toNat ∧ (running 10#4 0#32 0#32).cfg.maxClients ≤ (255#8).toNat ∧
      (running 10#4 0#32 0#32).WF ∧ (3#8).toNat < (running 10#4 0#32 0#32).cfg.maxClients := by decide
theorem witness_SetfreqFrame :
    (∃ t, exec (.setfreq 3#8 1000#32) (running 10#4 0#32 0#32) = .next t) ∧
      ∃ t, exec (.setfreq 3#8 1000#32) uninit = .next t := ⟨⟨_, rfl⟩, ⟨_, rfl⟩⟩
theorem witness_SetfreqTwiceWritesTheSame :
    ∃ t u, exec (.setfreq 3#8 1000#32) (running 10#4 0#32 0#32) = .next t ∧ exec (.setfreq 3#8 1000#32) t = .next u :=
  ⟨_, _, rfl, rfl⟩
theorem witness_RetuneKeepsThePhase :
    (running 10#4 5#32 7#32).WF ∧ (running 10#4 5#32 7#32).inited = true ∧
      (3#8).toNat < (running 10#4 5#32 7#32).cfg.maxClients ∧
      (running 10#4 5#32 7#32).row 3#8 = some { fcw := 5#32, phase := 7#32 } := by decide

/-- A rate at each end of the range; the tie clause of the statement at rate 2^33. -/
theorem witness_ControlWordIsTheRoundedQuotient :
    1 ≤ 1 ∧ 1 ≤ 4294967295 ∧ 2 * (roundHalfAway (1 * 4294967296) 8589934592 * 8589934592 - 1 * 4294967296).natAbs
      = 8589934592 := by decide
theorem witness_NoTieInTheControlWord :
    1 ≤ 1 ∧ 1 < 2 ^ 33 ∧ 1 ≤ 8589934591 ∧ 8589934591 < 2 ^ 33 ∧
      2 * ((1790 : Int) * 2400000 - 1 * 4294967296).natAbs ≤ 2400000 := by decide
theorem witness_AliasedOffsetsShareTheWord :
    1 ≤ 2 ∧ 2 < 2 ^ 32 ∧ 2 = 2 * 1 ∧ 1 ≤ 4294967294 ∧ 4294967294 < 2 ^ 32 ∧ 4294967294 = 2 * 2147483647 := by decide
theorem witness_NegatedOffsetNegatesTheWord : 1 ≤ 1 ∧ 1 ≤ 2400000 := by decide

theorem witness_NcoStepAddsThenLooksUp :
    (running 10#4 1#32 0xFFFFFFFF#32).row 3#8 = some { fcw := 1#32, phase := 0xFFFFFFFF#32 } ∧ 0#8 ≠ 3#8 := by decide
theorem witness_OscillatorIsPeriodic :
    (running 10#4 0#32 7#32).row 0#8 = some { fcw := 0#32, phase := 7#32 } ∧
      (running 10#4 0x20000000#32 0#32).row 3#8 = some { fcw := 0x20000000#32, phase := 0#32 } := by decide
theorem witness_ProcessCompletes :
    (running 14#4 0x40000000#32 0#32).WF ∧ (running 14#4 0x40000000#32 0#32).inited = true ∧
      (3#8).toNat < (running 14#4 0x40000000#32 0#32).cfg.maxClients ∧
      (running 14#4 0x40000000#32 0#32).row 3#8 = some { fcw := 0x40000000#32, phase := 0#32 } ∧ 0#8 ≠ 3#8 := by decide
theorem witness_ProcessRejectionsInOrder :
    uninit.inited = false ∧ (running 10#4 0#32 0#32).inited = true ∧
      (running 10#4 0#32 0#32).cfg.maxClients ≤ (4#8).toNat ∧ (running 10#4 0#32 0#32).cfg.maxClients ≤ (255#8).toNat ∧
      (running 10#4 0#32 0#32).WF ∧ (3#8).toNat < (running 10#4 0#32 0#32).cfg.maxClients := by decide
theorem witness_ProcessFrame :
    (∃ t, exec (.process 3#8 32767#16 0#16) (running 10#4 0x40000000#32 0#32) = .next t) ∧
      ∃ t, exec (.process 255#8 1#16 0#16) (running 10#4 0#32 0#32) = .next t := ⟨⟨_, rfl⟩, ⟨_, rfl⟩⟩
/-- Nothing between `INIT` and the first `PROCESS` of client 3; another client's `PROCESS` between them; a `SETFREQ` of
client 3 as the last command between them. -/
theorem witness_FirstProcessReadsTheAdvancedPhase :
    uninit.WF ∧ uninit.inited = false ∧ 1#32 ≠ 0#32 ∧ (3#8).toNat < uninit.cfg.maxClients ∧
      [[], [HostAction.cmd 0x3000000000010001#64],
        [.cmd 0x3000000000010001#64, .cmd (encode (.setfreq 3#8 600000#32))]].map
          (fun acts => (noReset acts, acts.any (isProcessOf 3#8), acts.any (isSetfreqOf 3#8),
            decide (acts.getLast? = some (.cmd (encode (.setfreq 3#8 600000#32))))))
        = [(true, false, false, false), (true, false, false, false), (true, false, true, true)] := by decide
/-- Samples and entries at both ends, so that each equivalence holds from left to right somewhere. -/
theorem witness_ProductsFitThirtyThreeBits :
    mulLo 0x8000#16 (tabRead 49152#16) = 1073741824 ∧ mulLo 0x8000#16 (tabRead 16384#16) = -1073741824 ∧
      (0 : Int) ≤ (0#16 : Sample).toInt ∧ (0 : Int) ≤ (32767#16 : Sample).toInt := by decide +kernel
/-- The peak entry at both ends of its plateau; values at both ends of the lossless range for `s = 0` and `s = 15`. -/
theorem witness_NarrowingIsLosslessExactlyInRange :
    (tabRead 16327#16).toInt = 32768 ∧ (tabRead 16441#16).toInt = 32768 ∧
      [((-32768 : Int), (0#4 : Shift)), (32767, 0#4), (-1073741824, 15#4), (1073741823, 15#4), (32768, 0#4),
        (-1073741825, 15#4)].map (fun p => decide ((narrow (scale p.1 p.2)).toInt = scale p.1 p.2))
        = [true, true, true, true, false, false] := by decide +kernel
/-- New phases at the ends of the two intervals, and just outside them. -/
theorem witness_ZeroCrossingGivesSilence :
    (running 10#4 0#32 0x8000FFFF#32).WF ∧ (running 10#4 0#32 0x8000FFFF#32).inited = true ∧
      (running 10#4 0#32 0x8000FFFF#32).row 3#8 = some { fcw := 0#32, phase := 0x8000FFFF#32 } ∧
      [0, 65535, 2147483648, 2147549183, 65536, 2147483647, 2147549184, 4294967295].map
        (fun p => decide (tabInt (p / 65536) = 0)) = [true, true, true, true, false, false, false, false] := by
  decide +kernel
/-- The peak at the last phase of its plateau, for `SHT` at 0 (under another `SHT_INIT`), 14 and 15. -/
theorem witness_PositivePeakRaisesTheShift :
    ({ running 0#4 0#32 0x4039FFFF#32 with cfg := { Config.reference with shtInit := 0#4 } } : State).WF ∧
      (running 14#4 0#32 0x4039FFFF#32).WF ∧ (running 15#4 0#32 0x4039FFFF#32).WF ∧
      (running 14#4 0#32 0x4039FFFF#32).row 3#8 = some { fcw := 0#32, phase := 0x4039FFFF#32 } ∧
      tabInt ((0x4039FFFF#32 + 0#32).toNat / 65536) = 32768 ∧ (14#4 : Shift).toNat ≤ 14 ∧ (15#4 : Shift).toNat = 15 := by
  decide +kernel
theorem witness_CeilingLeavesOneOverflow :
    (0x8000#16 : Sample).toInt = -32768 ∧ (tabRead 49095#16).toInt = -32768 ∧ (tabRead 49209#16).toInt = -32768 := by
  decide +kernel
theorem witness_OnlyPositiveIDrivesAdaptation :
    (∃ t t', exec (.process 0#8 1#16 0#16) (running 10#4 0x40000000#32 0#32) = .next t ∧
        exec (.process 0#8 1#16 32767#16) (running 10#4 0x40000000#32 0#32) = .next t') ∧
      (running 1#4 0#32 0x3FC60000#32).row 0#8 = some { fcw := 0#32, phase := 0x3FC60000#32 } ∧
      (2#16 : Sample).toInt * tabInt ((0x3FC60000#32 + 0#32).toNat / 65536) / 2 ^ (1#4 : Shift).toNat = 32767 :=
  ⟨⟨_, _, rfl, rfl⟩, by decide, by decide +kernel⟩

/-- A rejected word, its response and its state after; the hypotheses of both statements about rejections. -/
theorem witness_RejectedCommandChangesNothing :
    ∃ t, act (.cmd 0x2042000000000000#64) uninit = .next t ∧
      t.trace = uninit.trace ++ [] ++ [.rsp 0x2044000000000000#64] ∧
      (0x2044000000000000#64).toNat / 2 ^ 48 % 2 ^ 4 ≠ 0 := ⟨_, rfl, by decide, by decide⟩
theorem witness_RejectedCommandIsRejectedAgain :
    ∃ t, act (.cmd 0x3FF0000000010001#64) (running 10#4 0#32 0#32) = .next t ∧
      t.trace = [] ++ [] ++ [.rsp 0x3FF2000000000000#64] ∧
      (0x3FF2000000000000#64).toNat / 2 ^ 48 % 2 ^ 4 ≠ 0 := ⟨_, rfl, by decide, by decide⟩
/-- Well-formed states and words for each of the six statuses, in the order 4, 3, 5, 0, 1, 2, 0. -/
theorem witness_FirstCauseIsReported :
    uninit.WF ∧ (running 10#4 0#32 0#32).WF ∧
      [(0x4000000000000000#64, uninit), (0x1000000000000000#64, running 10#4 0#32 0#32), (0x1000000000000000#64, uninit),
        (0x1000000000000001#64, uninit), (0x3FF0000000000000#64, uninit), (0x2040000000000000#64, running 10#4 0#32 0#32),
        (0x3030000000000000#64, running 10#4 0#32 0#32)].map
          (fun p => ((outputs (act (.cmd p.1) p.2)).getD []).map fun x => match x with
            | .rsp r => r.toNat / 2 ^ 48 % 2 ^ 4
            | .evt _ => 99) = [[4], [3], [5], [0], [1], [2], [0]] := by decide +kernel
theorem witness_OneResponsePerCommand : ∃ t, act (.cmd 0xFFFFFFFFFFFFFFFF#64) uninit = .next t := ⟨_, rfl⟩
theorem witness_EventsCarryKindAndClient :
    (∃ t, act (.cmd 0x20000000000886CA#64) (running 10#4 0#32 0#32) = .next t ∧
      .evt 0x20003B9ACD2F000886CA#80 ∈ t.trace.drop 0) ∧ ∃ t, act .rst uninit = .next t :=
  ⟨⟨_, rfl, by decide +kernel⟩, _, rfl⟩
/-- The reference parameters, and the reference frequency at both ends of its range. -/
theorem witness_EventPayloads :
    Config.reference.Admissible ∧ ({ Config.reference with refFreqHz := 4611686018427387903 } : Config).Admissible ∧
      ({ Config.reference with refFreqHz := -4611686018427387903 } : Config).Admissible := by decide

theorem witness_StepKeepsWellFormed :
    (uninit.withFetchWord 64 0x1000000000249F00).WF ∧
      ∃ t, step (uninit.withFetchWord 64 0x1000000000249F00) = .next t := ⟨by decide, _, rfl⟩
/-- Admissible parameters at both ends of their ranges. -/
theorem witness_ResetIsWellFormed :
    ({ maxClients := 1, shtInit := 0#4, defaultOffsetHz := 0x80000000#32, refFreqHz := -4611686018427387903 } :
        Config).Admissible ∧
      ({ maxClients := 256, shtInit := 15#4, defaultOffsetHz := 0x7FFFFFFF#32, refFreqHz := 4611686018427387903 } :
        Config).Admissible := by decide
theorem witness_EveryStepAnswers :
    (uninit.withFetchWord 64 0x3000000000000000).WF ∧
      (uninit.withFetchWord 64 0x3000000000000000).pending = .cmd 0x3000000000000000#64 :: [] ∧
      ∃ t, step (uninit.withFetchWord 64 0x3000000000000000) = .next t := ⟨by decide, by decide, _, rfl⟩
theorem witness_ParametersNeverChange : ∃ t, step (uninit.withFetchWord 64 0x1000000000249F00) = .next t := ⟨_, rfl⟩
/-- `INIT` changes `INITED` from 0 to 1, reset from 1 to 0. -/
theorem witness_OnlyInitAndResetWriteInited :
    (∃ t, act (.cmd 0x1000000000249F00#64) uninit = .next t ∧ t.inited ≠ uninit.inited) ∧
      ∃ t, act .rst (running 10#4 0#32 0#32) = .next t ∧ t.inited ≠ (running 10#4 0#32 0#32).inited :=
  ⟨⟨_, rfl, by decide⟩, _, rfl, by decide⟩
theorem witness_SampleRateIsWrittenOnce :
    (running 10#4 0#32 0#32).inited = true ∧ noReset [.cmd 0x1000000000000001#64, .cmd 0x2000000000000001#64] = true ∧
      ∃ t, runActions [.cmd 0x1000000000000001#64, .cmd 0x2000000000000001#64] (running 10#4 0#32 0#32) = .next t :=
  ⟨by decide, by decide, _, rfl⟩
theorem witness_ShiftOnlyGrowsWithinItsBounds :
    (running 14#4 0x40000000#32 0#32).WF ∧ noReset [.cmd 0x300000007FFF0000#64] = true ∧
      ∃ t, runActions [.cmd 0x300000007FFF0000#64] (running 14#4 0x40000000#32 0#32) = .next t ∧ t.sht = 15#4 :=
  ⟨by decide, by decide, _, rfl, by decide +kernel⟩
theorem witness_PhaseIsTheSumOfIncrements :
    uninit.WF ∧ uninit.inited = false ∧ 2400000#32 ≠ 0#32 ∧ (3#8).toNat < uninit.cfg.maxClients ∧
      noReset [.cmd 0x20300000000927C0#64, .cmd 0x3030000000010001#64] = true ∧
      ∃ t, runActions (.cmd (encode (.init 2400000#32)) ::
        [.cmd 0x20300000000927C0#64, .cmd 0x3030000000010001#64]) uninit = .next t :=
  ⟨by decide, by decide, by decide, by decide, by decide, _, rfl⟩
/-- Two runs in state `RUN` that agree on client 0 and differ in the shift and in what client 1 does; and two runs that
agree on `INIT`, from states `UNINIT` with different rates and rows, and end in state `RUN`. -/
theorem witness_OscillatorsOfClientsAreIndependent :
    ((running 10#4 1#32 2#32).WF ∧ (running 12#4 1#32 2#32).WF ∧
      (running 10#4 1#32 2#32).row 0#8 = (running 12#4 1#32 2#32).row 0#8 ∧
      [HostAction.cmd 0x3000000000010001#64, .cmd 0x3010000000010001#64].filter (touchesClient 0#8)
        = [HostAction.cmd 0x2010000000000001#64, .cmd 0x3000000000010001#64].filter (touchesClient 0#8) ∧
      (∃ t, runActions [.cmd 0x3000000000010001#64, .cmd 0x3010000000010001#64] (running 10#4 1#32 2#32) = .next t ∧
        t.inited = true) ∧
      ∃ t, runActions [.cmd 0x2010000000000001#64, .cmd 0x3000000000010001#64] (running 12#4 1#32 2#32) = .next t) ∧
    (uninit.WF ∧ ({ running 10#4 1#32 2#32 with inited := false } : State).WF ∧
      uninit.row 0#8 ≠ ({ running 10#4 1#32 2#32 with inited := false } : State).row 0#8 ∧
      (∃ t, runActions [.cmd 0x1000000000249F00#64] uninit = .next t ∧ t.inited = true) ∧
      ∃ t, runActions [.cmd 0x1000000000249F00#64] { running 10#4 1#32 2#32 with inited := false } = .next t) :=
  ⟨⟨by decide, by decide, by decide, by decide, ⟨_, rfl, rfl⟩, _, rfl⟩, by decide, by decide, by decide, ⟨_, rfl, rfl⟩,
    _, rfl⟩
theorem witness_TableIsTheReconstruction :
    0 < 16384 ∧ 16383 < 16384 ∧ 16385 ≤ 16385 ∧ 32768 ≤ 32768 ∧ 32769 ≤ 32769 ∧ 65535 ≤ 65535 := by decide
theorem witness_TableSymmetries : (0#16 : BitVec 16).toNat ≤ 32768 ∧ (32768#16 : BitVec 16).toNat ≤ 32768 := by decide
theorem witness_TableRisesAndFalls :
    0 ≤ 16384 ∧ 16384 ≤ 16384 ∧ 16384 ≤ 49152 ∧ 49152 ≤ 49152 ∧ 49152 ≤ 65535 ∧ 65535 ≤ 65535 := by decide
/-- Each of the three values is taken, at the ends of its plateau. -/
theorem witness_TableZerosAndPeaks :
    [0#16, 32768#16, 16327#16, 16441#16, 49095#16, 49209#16].map (fun k => (tabRead k).toInt)
      = [0, 0, 32768, 32768, -32768, -32768] := by decide +kernel

end Sys2Proof.Tests
end

/-! PROOF. What one step can do, the invariant `State.WF` and the parameters along it, and the state after reset
(00_scope.md R10, R12, R13; 10_state.md R20, R22, R28, R30). -/

namespace Sys2Proof.Machine

variable {s t : State}

/-! ## What a step can do -/

theorem step_of_pending_nil (h : s.pending = []) : step s = .next s := by
  simp only [step_eq, h]

theorem step_of_pending_cons {a : HostAction} {rest : List HostAction} (h : s.pending = a :: rest) :
    step s = act a { s with pending := rest } := by
  simp only [step_eq, h]

/-- A step that answers either waited or performed the oldest pending action. -/
theorem step_cases (h : step s = .next t) :
    (s.pending = [] ∧ t = s) ∨
    (∃ a rest, s.pending = a :: rest ∧ act a { s with pending := rest } = .next t) := by
  cases hp : s.pending with
  | nil =>
    rw [step_of_pending_nil hp] at h
    exact .inl ⟨rfl, (Host.Outcome.next.inj h).symm⟩
  | cons a rest =>
    rw [step_of_pending_cons hp] at h
    exact .inr ⟨a, rest, rfl, h⟩

theorem act_cmd_of_decode_ok {w : CmdWord} {i : Instr} (h : decode w = .ok i) : act (.cmd w) s = exec i s := by
  simp only [act, execWord, h]

/-- Settles O10: the step performs the action, and the action is the command its word decodes to. -/
theorem stepRunsTheDecodedCommand : Obligations.StepRunsTheDecodedCommand := by
  intro s w rest i hpending hdecode
  rw [step_of_pending_cons hpending, act_cmd_of_decode_ok hdecode]

/-! ## What the events of `SETFREQ` leave unchanged -/

@[simp] theorem State.announceFreq_cfg (cid : ClientIx) (offs w : Word) :
    (s.announceFreq cid offs w).cfg = s.cfg := by rw [State.announceFreq_eq]
@[simp] theorem State.announceFreq_inited (cid : ClientIx) (offs w : Word) :
    (s.announceFreq cid offs w).inited = s.inited := by rw [State.announceFreq_eq]
@[simp] theorem State.announceFreq_srate (cid : ClientIx) (offs w : Word) :
    (s.announceFreq cid offs w).srate = s.srate := by rw [State.announceFreq_eq]
@[simp] theorem State.announceFreq_sht (cid : ClientIx) (offs w : Word) :
    (s.announceFreq cid offs w).sht = s.sht := by rw [State.announceFreq_eq]
@[simp] theorem State.announceFreq_clients (cid : ClientIx) (offs w : Word) :
    (s.announceFreq cid offs w).clients = s.clients := by rw [State.announceFreq_eq]
@[simp] theorem State.announceFreq_pending (cid : ClientIx) (offs w : Word) :
    (s.announceFreq cid offs w).pending = s.pending := by rw [State.announceFreq_eq]

/-! ## The parameters -/

theorem exec_cfg {i : Instr} (h : exec i s = .next t) : t.cfg = s.cfg := by
  obtain ⟨_, rfl⟩ | ⟨_, _, _, _, rfl⟩ | ⟨_, _, _, _, _, _, _, rfl⟩ | ⟨_, _, _, _, _, _, _, _, rfl⟩ :=
    exec_cases s t i h
  case inl => rfl
  case inr.inl => rfl
  case inr.inr.inl => simp
  case inr.inr.inr => simp

theorem act_cfg {a : HostAction} (h : act a s = .next t) : t.cfg = s.cfg := by
  obtain ⟨-, rfl⟩ | ⟨_, _, -, -, rfl⟩ | ⟨_, _, -, -, hexec⟩ := act_cases s t a h
  · rfl
  · rfl
  · exact exec_cfg hexec

theorem step_cfg (h : step s = .next t) : t.cfg = s.cfg := by
  obtain ⟨-, rfl⟩ | ⟨_, _, -, hact⟩ := step_cases h
  · rfl
  · have hcfg := act_cfg hact
    exact hcfg

/-- Settles O49: no command and no reset writes `cfg`. -/
theorem parametersNeverChange : Obligations.ParametersNeverChange := fun _ _ => step_cfg

/-! ## The state after reset -/

@[simp] theorem State.resetOf_clients_length (cfg : Config) : (State.resetOf cfg).clients.length = cfg.maxClients := by
  simp [State.resetOf]

theorem State.resetOf_wf {cfg : Config} (h : cfg.Admissible) : (State.resetOf cfg).WF :=
  have hlength := State.resetOf_clients_length cfg
  have hsht : cfg.shtInit.toNat ≤ (State.resetOf cfg).sht.toNat := Nat.le_refl _
  have hrate : (State.resetOf cfg).inited = true → (State.resetOf cfg).srate ≠ 0#32 := Bool.noConfusion
  ⟨h, hlength, hsht, hrate⟩

/-- The raw constants of `Config.chip` are bounded by their types, which leave exactly the ranges of R10. -/
theorem Config.chip_admissible : Config.chip.Admissible := by
  have hclients := Config.chipLastClient.isLt
  have hfreq := Config.chipRefFreqRaw.isLt
  simp only [Config.Admissible, Config.chip]
  omega

/-- Settles O12. -/
theorem resetIsProcessStart : Obligations.ResetIsProcessStart :=
  ⟨rfl, rfl, Config.chip_admissible, State.resetOf_clients_length Config.chip⟩

/-- Settles O47: the parameters of `State.reset` are one admissible choice. -/
theorem resetIsWellFormed : Obligations.ResetIsWellFormed :=
  ⟨State.resetOf_wf Config.chip_admissible, fun _ => State.resetOf_wf⟩

/-! ## The invariant -/

/-- What well-formedness reads: the parameters, `INITED`, `SRATE`, the number of rows, and the shift from below. -/
theorem State.WF.congr (hs : s.WF) (hcfg : t.cfg = s.cfg) (hlength : t.clients.length = s.clients.length)
    (hsht : s.sht.toNat ≤ t.sht.toNat) (hinited : t.inited = s.inited) (hsrate : t.srate = s.srate) : t.WF := by
  obtain ⟨hadm, hrows, hfloor, hrate⟩ := hs
  unfold State.WF
  rw [hcfg, hinited, hsrate]
  exact ⟨hadm, hlength.trans hrows, hfloor.trans hsht, hrate⟩

theorem State.WF.withPending (hs : s.WF) (p : List HostAction) : ({ s with pending := p } : State).WF := hs

theorem State.WF.reject (hs : s.WF) (opc : BitVec 4) (cid : ClientIx) (st : Status) : (s.reject opc cid st).WF := hs

theorem State.WF.respond (hs : s.WF) (i : Instr) (data : Word) : (s.respond i data).WF := hs

theorem State.WF.setRow (hs : s.WF) (cid : ClientIx) (r : Client) : (s.setRow cid r).WF :=
  hs.congr rfl (by simp) (Nat.le_refl _) rfl rfl

theorem State.WF.announceFreq (hs : s.WF) (cid : ClientIx) (offs w : Word) : (s.announceFreq cid offs w).WF :=
  hs.congr (by simp) (by simp) (by simp) (by simp) (by simp)

/-- Adaptation never lowers the shift, so it stays at or above `SHT_INIT` (R28). -/
theorem State.WF.adapt (hs : s.WF) (cid : ClientIx) (si : Int) : (s.adapt cid si).WF :=
  have hsht : s.sht.toNat ≤ (s.adapt cid si).sht.toNat := by
    rw [State.adapt_sht_toNat]
    exact Nat.le_add_right _ _
  hs.congr (by simp) (by simp) hsht (by simp) (by simp)

/-- `INIT` writes one row per client and the rate it has checked. -/
theorem State.WF.initialise (hs : s.WF) {srate : Word} (hrate : srate ≠ 0#32) : (s.initialise srate).WF := by
  obtain ⟨hadm, -, hfloor, -⟩ := hs
  exact ⟨hadm, by simp, hfloor, fun _ => hrate⟩

theorem State.WF.afterReset (hs : s.WF) : s.afterReset.WF :=
  State.resetOf_wf hs.1

theorem exec_wf {i : Instr} (hs : s.WF) (h : exec i s = .next t) : t.WF := by
  obtain ⟨st, rfl⟩ | ⟨srate, -, -, hrate, rfl⟩ | ⟨cid, offs, r, -, -, -, -, rfl⟩ | ⟨cid, x, y, r, -, -, -, -, rfl⟩ :=
    exec_cases s t i h
  case inl => exact hs.reject _ _ _
  case inr.inl => exact (hs.initialise hrate).respond _ _
  case inr.inr.inl => exact ((hs.setRow _ _).announceFreq _ _ _).respond _ _
  case inr.inr.inr => exact ((hs.setRow _ _).adapt _ _).respond _ _

theorem act_wf {a : HostAction} (hs : s.WF) (h : act a s = .next t) : t.WF := by
  obtain ⟨-, rfl⟩ | ⟨w, e, -, -, rfl⟩ | ⟨w, i, -, -, hexec⟩ := act_cases s t a h
  · exact hs.afterReset
  · exact hs.reject _ _ _
  · exact exec_wf hs hexec

theorem step_wf (hs : s.WF) (h : step s = .next t) : t.WF := by
  obtain ⟨-, rfl⟩ | ⟨a, rest, -, hact⟩ := step_cases h
  · exact hs
  · exact act_wf (hs.withPending rest) hact

/-- Settles O46: waiting changes nothing, and each thing a host action can do keeps `State.WF`. -/
theorem stepKeepsWellFormed : Obligations.StepKeepsWellFormed := fun _ _ => step_wf

end Sys2Proof.Machine

/-! PROOF. What each command does to each register: the frames of `INIT`, `SETFREQ` and `PROCESS`, and the one row
that each of the last two writes (10_state.md R25, R35; 40_init_table.md R92, R93; 41_setfreq.md R112 to R114;
43_mixer.md R142, R143). -/

namespace Sys2Proof.Machine

variable {s t : State} {i : Instr} {cid d : ClientIx}

/-! ## Rows of the register file -/

/-- Rewriting a row keeps, in every row, whatever the new row has in common with the old one. -/
theorem State.map_row_setRow {α : Type} {f : Client → α} {r r' : Client} (hr : s.row cid = some r) (hf : f r' = f r) :
    ((s.setRow cid r').row d).map f = (s.row d).map f := by
  by_cases hd : d = cid
  · subst hd
    rw [s.row_setRow_same d r' (s.lt_length_of_row d r hr), hr, Option.map_some, Option.map_some, hf]
  · rw [s.row_setRow_other cid d r' hd]

@[simp] theorem State.row_announceFreq (offs w : Word) : (s.announceFreq cid offs w).row d = s.row d := by
  simp [State.row]

@[simp] theorem State.row_adapt (si : Int) : (s.adapt cid si).row d = s.row d := by
  simp [State.row]

theorem State.row_initialise {srate : Word} (hd : d.toNat < s.cfg.maxClients) :
    (s.initialise srate).row d = some { fcw := fcw s.cfg.defaultOffsetHz.toInt srate.toNat, phase := 0#32 } := by
  simp [State.row, hd]

/-! ## What the ports carry -/

/-- What the ports have carried is never withdrawn (R13). -/
theorem exec_trace_extends (h : exec i s = .next t) : ∃ new, t.trace = s.trace ++ new := by
  obtain ⟨_, rfl⟩ | ⟨_, _, _, _, rfl⟩ | ⟨_, _, _, _, _, _, _, rfl⟩ | ⟨cid, x, _, r, _, _, _, _, rfl⟩ :=
    exec_cases s t i h
  case inl => exact ⟨_, rfl⟩
  case inr.inl => exact ⟨_, rfl⟩
  case inr.inr.inl => simp [State.announceFreq_eq]
  case inr.inr.inr =>
    rcases (s.setRow cid { r with phase := r.phase + r.fcw }).adapt_cases cid
      (scale (mulLo x (tabRead (tableIndex (r.phase + r.fcw)))) s.sht) with ⟨-, e⟩ | ⟨-, e⟩ <;> simp [e]

/-! ## Frames -/

/-- Settles O17: a rejected `INIT` writes nothing, and an accepted one has met neither cause of rejection. -/
theorem initFrame : Obligations.InitFrame := by
  intro s t srate h
  obtain ⟨st, rfl⟩ | ⟨rate, hi, hinited, hrate, rfl⟩ | ⟨_, _, _, hi, -⟩ | ⟨_, _, _, _, hi, -⟩ := exec_cases s t _ h
  case inl => exact ⟨rfl, rfl, rfl, ⟨_, rfl⟩, fun _ => ⟨rfl, rfl, rfl⟩⟩
  case inr.inl =>
    cases hi
    exact ⟨rfl, rfl, rfl, ⟨_, rfl⟩, fun hrej => by simp [hinited, hrate] at hrej⟩
  case inr.inr.inl => cases hi
  case inr.inr.inr => cases hi

/-- Settles O20: an accepted `SETFREQ` rewrites one row with its old phase. -/
theorem setfreqFrame : Obligations.SetfreqFrame := by
  intro s t cid offs h
  have htrace := exec_trace_extends h
  obtain ⟨st, rfl⟩ | ⟨_, hi, -⟩ | ⟨_, _, r, hi, -, -, hr, rfl⟩ | ⟨_, _, _, _, hi, -⟩ := exec_cases s t _ h
  case inl => exact ⟨rfl, rfl, rfl, rfl, rfl, rfl, fun _ _ => rfl, fun _ => rfl, htrace⟩
  case inr.inl => cases hi
  case inr.inr.inl =>
    cases hi
    refine ⟨by simp, by simp, by simp, by simp, by simp, by simp, fun d hd => ?_, fun d => ?_, htrace⟩
    · simp [State.row_setRow_other _ _ _ _ hd]
    · simp [State.map_row_setRow hr]
  case inr.inr.inr => cases hi

/-- Settles O32: an accepted `PROCESS` rewrites one row with its old control word, and only adaptation writes `SHT`. -/
theorem processFrame : Obligations.ProcessFrame := by
  intro s t cid x y h
  have htrace := exec_trace_extends h
  obtain ⟨st, rfl⟩ | ⟨_, hi, -⟩ | ⟨_, _, _, hi, -⟩ | ⟨_, _, _, r, hi, -, -, hr, rfl⟩ := exec_cases s t _ h
  case inl => exact ⟨rfl, rfl, rfl, rfl, rfl, fun _ _ => rfl, fun _ => rfl, .inl rfl, htrace⟩
  case inr.inl => cases hi
  case inr.inr.inl => cases hi
  case inr.inr.inr =>
    cases hi
    refine ⟨by simp, by simp, by simp, by simp, by simp, fun d hd => ?_, fun d => ?_, ?_, htrace⟩
    · simp [State.row_setRow_other _ _ _ _ hd]
    · simp [State.map_row_setRow hr]
    · have hsht := (s.setRow cid { r with phase := r.phase + r.fcw }).adapt_sht_toNat cid
        (scale (mulLo x (tabRead (tableIndex (r.phase + r.fcw)))) s.sht)
      split at hsht
      · exact .inr hsht
      · exact .inl (BitVec.eq_of_toNat_eq hsht)

/-! ## Acceptance, and the row that a command writes -/

/-- `SETFREQ` and `PROCESS` are accepted exactly when no cause of rejection applies. -/
theorem acceptsClient_iff : acceptsClient cid s = true ↔ rejectionOfClient cid s = none := by
  simp [acceptsClient, rejectionOfClient_eq_none]

theorem exec_init_of_accepted {srate : Word} (hinited : s.inited = false) (hrate : srate ≠ 0#32) :
    exec (.init srate) s = .next ((s.initialise srate).respond (.init srate) 0#32) := by
  simp only [exec, execInit, (rejectionOfInit_eq_none s srate).mpr ⟨hinited, hrate⟩]

/-- `SETFREQ` gives the client it names the control word of the offset, if it is accepted (R112). -/
theorem exec_setfreq_row {offs : Word} (h : exec (.setfreq cid offs) s = .next t) :
    t.row cid = if acceptsClient cid s then (s.row cid).map fun r => { r with fcw := fcw offs.toInt s.srate.toNat }
      else s.row cid := by
  simp only [exec, execSetfreq] at h
  split at h
  next st hrej =>
    cases h
    simp [acceptsClient_iff, hrej]
  next hrej =>
    split at h
    next => cases h
    next r hr =>
      cases h
      simp [acceptsClient_iff, hrej, hr, s.row_setRow_same _ _ (s.lt_length_of_row cid r hr)]

/-- `PROCESS` advances the phase of the client it names by its control word, if it is accepted (R130). -/
theorem exec_process_row {x y : Sample} (h : exec (.process cid x y) s = .next t) :
    t.row cid = if acceptsClient cid s then (s.row cid).map fun r => { r with phase := r.phase + r.fcw }
      else s.row cid := by
  simp only [exec, execProcess] at h
  split at h
  next st hrej =>
    cases h
    simp [acceptsClient_iff, hrej]
  next hrej =>
    split at h
    next => cases h
    next lo s₁ hstep =>
      obtain ⟨r, hr, rfl, rfl⟩ := (s.ncoStep_eq_some s₁ cid lo).mp hstep
      cases h
      simp [acceptsClient_iff, hrej, hr, s.row_setRow_same _ _ (s.lt_length_of_row cid r hr)]

end Sys2Proof.Machine

/-! PROOF. The control word of a negated offset (41_setfreq.md R111). -/

namespace Sys2Proof.Machine

/-- Settles O26: rounding half away from zero is odd, and the low 32 bits of a negated integer are the negated bits. -/
theorem negatedOffsetNegatesTheWord : Obligations.NegatedOffsetNegatesTheWord := by
  intro offs srate hrate
  have hne : srate ≠ 0 := Nat.one_le_iff_ne_zero.mp hrate
  rw [fcw_eq _ _ hne, fcw_eq _ _ hne, Int.neg_mul, roundHalfAway_neg, BitVec.ofInt_neg]

end Sys2Proof.Machine

/-! PROOF. Runs within one life of the block: what no action but a reset undoes (10_state.md R22, R25, R28), and the
phase as the sum of the control words applied (R27). -/

namespace Sys2Proof.Machine

variable {s t u : State} {i : Instr} {a : HostAction} {as : List HostAction} {c : ClientIx}

/-! ## Induction over a run -/

/-- What every action of a run keeps holds at its end. -/
theorem runActions_invariant {P : State → Prop} (hstep : ∀ a ∈ as, ∀ u v, P u → act a u = .next v → P v)
    (h : runActions as s = .next t) (hs : P s) : P t := by
  induction as generalizing s with
  | nil => cases h; exact hs
  | cons a as ih =>
    obtain ⟨u, hact, hrest⟩ := runActions_cons h
    exact ih (fun b hb => hstep b (.tail a hb)) hrest (hstep a (.head as) s u hs hact)

/-- A run without reset keeps what every other action keeps. -/
theorem runActions_invariant_of_noReset {P : State → Prop}
    (hstep : ∀ a u v, a ≠ .rst → P u → act a u = .next v → P v) (hreset : noReset as = true)
    (h : runActions as s = .next t) (hs : P s) : P t := by
  refine runActions_invariant (fun a ha u v => hstep a u v ?_) h hs
  rintro rfl
  simpa using List.all_eq_true.mp hreset _ ha

/-! ## The lifecycle -/

/-- A command leaves `INITED` and `SRATE` alone, unless it is an accepted `INIT`. -/
theorem exec_lifecycle (h : exec i s = .next t) :
    (t.inited = s.inited ∧ t.srate = s.srate) ∨
    (∃ srate, i = .init srate ∧ srate ≠ 0#32 ∧ s.inited = false ∧ t.inited = true ∧ t.srate = srate) := by
  obtain ⟨_, rfl⟩ | ⟨srate, rfl, hinited, hrate, rfl⟩ | ⟨_, _, _, _, _, _, _, rfl⟩ | ⟨_, _, _, _, _, _, _, _, rfl⟩ :=
    exec_cases s t i h
  case inl => exact .inl ⟨rfl, rfl⟩
  case inr.inl => exact .inr ⟨srate, rfl, hrate, hinited, rfl, rfl⟩
  case inr.inr.inl => exact .inl ⟨by simp, by simp⟩
  case inr.inr.inr => exact .inl ⟨by simp, by simp⟩

/-- In state `RUN` only a reset writes `INITED` or `SRATE` (R22, R25). -/
theorem act_lifecycle_of_inited (ha : a ≠ .rst) (hs : s.inited = true) (h : act a s = .next t) :
    t.inited = true ∧ t.srate = s.srate := by
  obtain ⟨rfl, -⟩ | ⟨_, _, -, -, rfl⟩ | ⟨w, i, -, -, hexec⟩ := act_cases s t a h
  · exact absurd rfl ha
  · exact ⟨hs, rfl⟩
  · obtain ⟨hinited, hsrate⟩ | ⟨_, -, -, hinited, -⟩ := exec_lifecycle hexec
    · exact ⟨hinited.trans hs, hsrate⟩
    · simp [hs] at hinited

theorem commandOf_cmd {w : CmdWord} (h : decode w = .ok i) : commandOf (.cmd w) = some i := by
  simp only [commandOf, h]

theorem commandOf_cmd_of_illegal {w : CmdWord} {e : Illegal} (h : decode w = .error e) : commandOf (.cmd w) = none := by
  simp only [commandOf, h]

/-- Settles O50. -/
theorem onlyInitAndResetWriteInited : Obligations.OnlyInitAndResetWriteInited := by
  intro a s t h hne
  obtain ⟨rfl, rfl⟩ | ⟨_, _, -, -, rfl⟩ | ⟨w, i, rfl, hdecode, hexec⟩ := act_cases s t a h
  · exact .inl ⟨rfl, rfl⟩
  · exact absurd rfl hne
  · obtain ⟨hinited, -⟩ | ⟨srate, rfl, hrate, -, hinited, hsrate⟩ := exec_lifecycle hexec
    · exact absurd hinited hne
    · exact .inr ⟨hinited, srate, commandOf_cmd hdecode, hrate, hsrate⟩

/-- Settles O51: each action of the run keeps both registers, by `act_lifecycle_of_inited`. -/
theorem sampleRateIsWrittenOnce : Obligations.SampleRateIsWrittenOnce := by
  intro acts s t hs hreset h
  refine runActions_invariant_of_noReset (P := fun u => u.srate = s.srate ∧ u.inited = true) ?_ hreset h ⟨rfl, hs⟩
  intro a u v ha hu hact
  obtain ⟨hsrate, hinited⟩ := hu
  obtain ⟨hinited', hsrate'⟩ := act_lifecycle_of_inited ha hinited hact
  exact ⟨hsrate'.trans hsrate, hinited'⟩

/-! ## The gain shift and its events -/

@[simp] theorem Event.word_kind (e : Event) : e.word.extractLsb' 76 4 = e.kind := by
  apply BitVec.eq_of_toNat_eq
  have hclient := e.client.isLt
  have hpayload := e.payload.isLt
  have hkind := e.kind.isLt
  rw [BitVec.extractLsb'_toNat, Event.word_toNat, Nat.shiftRight_eq_div_pow]
  omega

@[simp] theorem gainEventCount_append (l m : List Transfer) :
    gainEventCount (l ++ m) = gainEventCount l + gainEventCount m := List.countP_append ..

@[simp] theorem gainEventCount_nil : gainEventCount [] = 0 := rfl

@[simp] theorem gainEventCount_rsp (w : RspWord) (l : List Transfer) :
    gainEventCount (.rsp w :: l) = gainEventCount l := by simp [gainEventCount]

@[simp] theorem gainEventCount_evt (e : Event) (l : List Transfer) :
    gainEventCount (.evt e.word :: l) = gainEventCount l + if e.kind = 3#4 then 1 else 0 := by
  simp [gainEventCount, List.countP_cons]

/-- The events of `SETFREQ` are of the other two kinds. -/
@[simp] theorem State.gainEventCount_announceFreq (offs w : Word) :
    gainEventCount (s.announceFreq c offs w).trace = gainEventCount s.trace := by
  rw [State.announceFreq_eq]
  split <;> simp [Event.kind]

/-- Adaptation is reported exactly when it happens (R152). -/
theorem State.gainEventCount_adapt (si : Int) :
    gainEventCount (s.adapt c si).trace = gainEventCount s.trace + if adapts si s.sht then 1 else 0 := by
  rcases s.adapt_cases c si with ⟨hadapts, e⟩ | ⟨hadapts, e⟩ <;> rw [e] <;> simp [hadapts, Event.kind]

/-- From `s` to `t` the shift has not fallen, and `GAIN_ADAPTED` was emitted once for each step it rose. -/
def State.ShiftRose (s t : State) : Prop :=
  s.sht.toNat ≤ t.sht.toNat ∧ gainEventCount t.trace + s.sht.toNat = gainEventCount s.trace + t.sht.toNat

theorem State.ShiftRose.of_eq (hsht : t.sht = s.sht) (hcount : gainEventCount t.trace = gainEventCount s.trace) :
    s.ShiftRose t := by
  unfold State.ShiftRose
  rw [hsht, hcount]
  exact ⟨le_rfl, rfl⟩

theorem State.ShiftRose.trans (hst : s.ShiftRose t) (htu : t.ShiftRose u) : s.ShiftRose u := by
  unfold State.ShiftRose at *
  omega

theorem exec_shiftRose (h : exec i s = .next t) : s.ShiftRose t := by
  obtain ⟨_, rfl⟩ | ⟨_, _, _, _, rfl⟩ | ⟨_, _, _, _, _, _, _, rfl⟩ | ⟨cid, x, _, r, _, _, _, _, rfl⟩ :=
    exec_cases s t i h
  case inl => exact .of_eq rfl (by simp)
  case inr.inl => exact .of_eq rfl (by simp)
  case inr.inr.inl => exact .of_eq (by simp) (by simp)
  case inr.inr.inr =>
    simp only [State.ShiftRose, State.respond_sht, State.adapt_sht_toNat, State.respond_trace, gainEventCount_append,
      State.gainEventCount_adapt, gainEventCount_rsp, gainEventCount_nil, State.setRow_sht, State.setRow_trace]
    omega

theorem act_shiftRose (ha : a ≠ .rst) (h : act a s = .next t) : s.ShiftRose t := by
  obtain ⟨rfl, -⟩ | ⟨_, _, -, -, rfl⟩ | ⟨w, i, -, -, hexec⟩ := act_cases s t a h
  · exact absurd rfl ha
  · exact .of_eq rfl (by simp)
  · exact exec_shiftRose hexec

/-- Settles O52: `State.ShiftRose` holds from the start of the run to each of its states; the floor is that of the
well-formed start, and the ceiling is the width of the register. -/
theorem shiftOnlyGrowsWithinItsBounds : Obligations.ShiftOnlyGrowsWithinItsBounds := by
  intro acts s t hs hreset h
  obtain ⟨-, -, hfloor, -⟩ := hs
  obtain ⟨hrise, hcount⟩ : s.ShiftRose t :=
    runActions_invariant_of_noReset (fun _ _ _ ha hrose hact => hrose.trans (act_shiftRose ha hact)) hreset h
      (.of_eq rfl rfl)
  have hceiling := t.sht.isLt
  omega

/-! ## The phase -/

/-- R74 on the words of `INIT`. -/
theorem decode_encode_init (srate : Word) : decode (encode (.init srate)) = .ok (.init srate) := by
  simp [decode, Instr.opc, Instr.cid, Instr.arg]

/-- In state `RUN` every action but a reset keeps each row in place and adds to its phase what R27 says. -/
theorem act_phase {r : Client} (ha : a ≠ .rst) (hs : s.inited = true) (hr : s.row c = some r)
    (h : act a s = .next t) : ∃ r', t.row c = some r' ∧ r'.phase = r.phase + phaseIncrement c a s := by
  obtain ⟨rfl, -⟩ | ⟨w, e, rfl, hdecode, rfl⟩ | ⟨w, i, rfl, hdecode, hexec⟩ := act_cases s t a h
  · exact absurd rfl ha
  · exact ⟨r, hr, by simp [phaseIncrement, processesClient, commandOf_cmd_of_illegal hdecode]⟩
  · simp only [phaseIncrement, processesClient, commandOf_cmd hdecode, hr]
    cases i with
    | init srate =>
      obtain ⟨-, -, -, -, hframe⟩ := initFrame s t srate hexec
      obtain ⟨-, -, hclients⟩ := hframe (.inl hs)
      exact ⟨r, by rw [State.row, hclients]; exact hr, by simp⟩
    | setfreq cid offs =>
      obtain ⟨-, -, -, -, -, -, -, hphase, -⟩ := setfreqFrame s t cid offs hexec
      have hc := hphase c
      rw [hr, Option.map_some, Option.map_eq_some_iff] at hc
      simpa using hc
    | process cid x y =>
      obtain ⟨-, -, -, -, -, hother, -⟩ := processFrame s t cid x y hexec
      by_cases hcid : cid = c
      · subst hcid
        rw [exec_process_row hexec, hr]
        cases hacc : acceptsClient cid s <;> simp [hacc]
      · exact ⟨r, (hother c (Ne.symm hcid)).trans hr, by simp [hcid]⟩

theorem runActions_phase {r : Client} (hreset : noReset as = true) (hs : s.inited = true) (hr : s.row c = some r)
    (h : runActions as s = .next t) : ∃ r', t.row c = some r' ∧ r'.phase = r.phase + phaseIncrements c as s := by
  induction as generalizing s r with
  | nil =>
    cases h
    exact ⟨r, hr, by simp [phaseIncrements]⟩
  | cons a as ih =>
    obtain ⟨u, hact, hrest⟩ := runActions_cons h
    obtain ⟨ha, hreset⟩ := noReset_cons.mp hreset
    obtain ⟨hu, -⟩ := act_lifecycle_of_inited ha hs hact
    obtain ⟨r₁, hr₁, hphase₁⟩ := act_phase ha hs hr hact
    obtain ⟨r', hr', hphase'⟩ := ih hreset hu hr₁ hrest
    refine ⟨r', hr', ?_⟩
    simp only [phaseIncrements, hact]
    rw [hphase', hphase₁, BitVec.add_assoc]

/-- Settles O53: `INIT` writes phase 0 into every row, and `runActions_phase` adds the words applied since. -/
theorem phaseIsTheSumOfIncrements : Obligations.PhaseIsTheSumOfIncrements := by
  intro s t srate acts c _ hinited hrate hc hreset h
  have hinit : act (.cmd (encode (.init srate))) s = .next ((s.initialise srate).respond (.init srate) 0#32) := by
    rw [act_cmd_of_decode_ok (decode_encode_init srate), exec_init_of_accepted hinited hrate]
  obtain ⟨s₁, hact, hrest⟩ := runActions_cons h
  cases hinit.symm.trans hact
  have hrow : ((s.initialise srate).respond (.init srate) 0#32).row c = some _ := State.row_initialise hc
  obtain ⟨r, hr, hphase⟩ := runActions_phase hreset rfl hrow hrest
  exact ⟨_, r, hinit, hr, by simpa using hphase⟩

end Sys2Proof.Machine

/-! PROOF. Noninterference between clients (10_state.md R33): two states that agree on what client `c`'s oscillator is
computed from keep agreeing under an action that may touch it, and an action that may not touches none of it. -/

namespace Sys2Proof.Machine

variable {s t u s₁ s₂ t₁ t₂ : State} {i : Instr} {a : HostAction} {as as₁ as₂ : List HostAction} {c : ClientIx}

/-! ## Agreement on a client -/

/-- The two states hold the same of all that client `c`'s row is computed from; in state `UNINIT`, where R30 gives the
rate and the rows no value, only the parameters and `INITED` count. -/
structure State.AgreeOn (c : ClientIx) (s t : State) : Prop where
  cfg : s.cfg = t.cfg
  inited : s.inited = t.inited
  srate : s.inited = true → s.srate = t.srate
  row : s.inited = true → s.row c = t.row c

theorem State.AgreeOn.refl (c : ClientIx) (s : State) : s.AgreeOn c s :=
  ⟨rfl, rfl, fun _ => rfl, fun _ => rfl⟩

theorem State.AgreeOn.symm (h : s.AgreeOn c t) : t.AgreeOn c s :=
  have hrun : t.inited = true → s.inited = true := fun ht => h.inited.trans ht
  ⟨h.cfg.symm, h.inited.symm, fun ht => (h.srate (hrun ht)).symm, fun ht => (h.row (hrun ht)).symm⟩

theorem State.AgreeOn.trans (hst : s.AgreeOn c t) (htu : t.AgreeOn c u) : s.AgreeOn c u :=
  have hrun : s.inited = true → t.inited = true := fun hs => hst.inited.symm.trans hs
  ⟨hst.cfg.trans htu.cfg, hst.inited.trans htu.inited, fun hs => (hst.srate hs).trans (htu.srate (hrun hs)),
    fun hs => (hst.row hs).trans (htu.row (hrun hs))⟩

/-- What is left alone is agreed on. -/
theorem State.AgreeOn.of_eq (hcfg : t.cfg = s.cfg) (hinited : t.inited = s.inited) (hsrate : t.srate = s.srate)
    (hrow : t.row c = s.row c) : t.AgreeOn c s :=
  ⟨hcfg, hinited, fun _ => hsrate, fun _ => hrow⟩

theorem acceptsClient_congr (h : s₁.AgreeOn c s₂) (d : ClientIx) : acceptsClient d s₁ = acceptsClient d s₂ := by
  simp only [acceptsClient, h.cfg, h.inited]

/-! ## Actions that do not touch the client -/

/-- `SETFREQ` and `PROCESS` write no register that another client's row is computed from. -/
theorem exec_frame_of_client (hi : ∀ srate, i ≠ .init srate) (h : exec i s = .next t) :
    t.cfg = s.cfg ∧ t.inited = s.inited ∧ t.srate = s.srate ∧ ∀ d, d ≠ i.cid → t.row d = s.row d := by
  cases i with
  | init srate => exact absurd rfl (hi srate)
  | setfreq cid offs =>
    obtain ⟨hcfg, -, hinited, hsrate, -, -, hother, -⟩ := setfreqFrame s t cid offs h
    exact ⟨hcfg, hinited, hsrate, hother⟩
  | process cid x y =>
    obtain ⟨hcfg, -, hinited, hsrate, -, hother, -⟩ := processFrame s t cid x y h
    exact ⟨hcfg, hinited, hsrate, hother⟩

/-- A command that may not touch the client names another one. -/
theorem ne_init_and_cid_ne_of_not_touches {w : CmdWord} (ht : touchesClient c (.cmd w) = false)
    (hdecode : decode w = .ok i) : (∀ srate, i ≠ .init srate) ∧ c ≠ i.cid := by
  simp only [touchesClient, hdecode] at ht
  cases i with
  | init srate => cases ht
  | setfreq cid offs => exact ⟨nofun, Ne.symm (of_decide_eq_false ht)⟩
  | process cid x y => exact ⟨nofun, Ne.symm (of_decide_eq_false ht)⟩

theorem act_agreeOn_of_not_touches (ht : touchesClient c a = false) (h : act a s = .next t) : t.AgreeOn c s := by
  obtain ⟨rfl, -⟩ | ⟨_, _, -, -, rfl⟩ | ⟨w, i, rfl, hdecode, hexec⟩ := act_cases s t a h
  · simp [touchesClient] at ht
  · exact .of_eq rfl rfl rfl rfl
  · obtain ⟨hi, hc⟩ := ne_init_and_cid_ne_of_not_touches ht hdecode
    obtain ⟨hcfg, hinited, hsrate, hother⟩ := exec_frame_of_client hi hexec
    exact .of_eq hcfg hinited hsrate (hother c hc)

theorem touchesClient_of_processesClient (h : processesClient c a s = true) : touchesClient c a = true := by
  cases a with
  | rst => rfl
  | cmd w =>
    cases hdecode : decode w with
    | error e => simp [processesClient, commandOf_cmd_of_illegal hdecode] at h
    | ok i =>
      simp only [processesClient, commandOf_cmd hdecode] at h
      simp only [touchesClient, hdecode]
      cases i with
      | init srate => rfl
      | setfreq cid offs => simp at h
      | process cid x y => exact (Bool.and_eq_true_iff.mp h).1

theorem oscillatorSample_of_not_touches (ht : touchesClient c a = false) : oscillatorSample c a s = [] := by
  have hp : processesClient c a s = false :=
    Bool.eq_false_iff.mpr fun hp => by simp [touchesClient_of_processesClient hp] at ht
  simp [oscillatorSample, hp]

/-- A run that does not touch the client leaves it as it was, and the client sees no oscillator sample. -/
theorem runActions_of_not_touches (ht : ∀ a ∈ as, touchesClient c a = false) (h : runActions as s = .next t) :
    t.AgreeOn c s ∧ oscillatorSamples c as s = [] := by
  induction as generalizing s with
  | nil =>
    cases h
    exact ⟨.refl c _, rfl⟩
  | cons a as ih =>
    obtain ⟨u, hact, hrest⟩ := runActions_cons h
    have ha : touchesClient c a = false := ht a (.head as)
    obtain ⟨hagree, hsamples⟩ := ih (fun b hb => ht b (.tail a hb)) hrest
    refine ⟨hagree.trans (act_agreeOn_of_not_touches ha hact), ?_⟩
    simp [oscillatorSamples, hact, hsamples, oscillatorSample_of_not_touches ha]

/-! ## The same action in two states that agree -/

theorem exec_agreeOn_of_init_rejected {srate : Word} (hrej : s.inited = true ∨ srate = 0#32)
    (h : exec (.init srate) s = .next t) : t.AgreeOn c s := by
  obtain ⟨-, hcfg, -, -, hframe⟩ := initFrame s t srate h
  obtain ⟨hinited, hsrate, hclients⟩ := hframe hrej
  exact .of_eq hcfg hinited hsrate (by rw [State.row, hclients, State.row])

/-- An accepted `INIT` writes what depends on the parameters and the rate only (R93). -/
theorem exec_agreeOn_init {srate : Word} (hs : s₁.AgreeOn c s₂) (h₁ : exec (.init srate) s₁ = .next t₁)
    (h₂ : exec (.init srate) s₂ = .next t₂) : t₁.AgreeOn c t₂ := by
  by_cases hrej : s₁.inited = true ∨ srate = 0#32
  · have hkept₁ : t₁.AgreeOn c s₁ := exec_agreeOn_of_init_rejected hrej h₁
    have hkept₂ : t₂.AgreeOn c s₂ := exec_agreeOn_of_init_rejected (hs.inited ▸ hrej) h₂
    exact (hkept₁.trans hs).trans hkept₂.symm
  · obtain ⟨hinited, hrate⟩ := not_or.mp hrej
    have hinited₁ : s₁.inited = false := Bool.eq_false_iff.mpr hinited
    have hinited₂ : s₂.inited = false := hs.inited.symm.trans hinited₁
    cases (exec_init_of_accepted hinited₁ hrate).symm.trans h₁
    cases (exec_init_of_accepted hinited₂ hrate).symm.trans h₂
    exact ⟨hs.cfg, rfl, fun _ => rfl, fun _ => by simp [State.row, hs.cfg]⟩

/-- A command that names a client keeps the agreement, if it writes the same row into both states. -/
theorem exec_agreeOn_client (hs : s₁.AgreeOn c s₂) (h₁ : exec i s₁ = .next t₁) (h₂ : exec i s₂ = .next t₂)
    (hi : ∀ srate, i ≠ .init srate) (hrow : s₁.inited = true → c = i.cid → t₁.row c = t₂.row c) : t₁.AgreeOn c t₂ := by
  obtain ⟨hcfg₁, hinited₁, hsrate₁, hother₁⟩ := exec_frame_of_client hi h₁
  obtain ⟨hcfg₂, hinited₂, hsrate₂, hother₂⟩ := exec_frame_of_client hi h₂
  refine ⟨by rw [hcfg₁, hcfg₂, hs.cfg], by rw [hinited₁, hinited₂, hs.inited], fun hrun => ?_, fun hrun => ?_⟩
  · rw [hsrate₁, hsrate₂, hs.srate (hinited₁ ▸ hrun)]
  · by_cases hc : c = i.cid
    · exact hrow (hinited₁ ▸ hrun) hc
    · rw [hother₁ c hc, hother₂ c hc, hs.row (hinited₁ ▸ hrun)]

/-- What a command writes of a client is computed from what the two states agree on; `SHT`, on which they may differ,
goes into no row. -/
theorem exec_agreeOn (hs : s₁.AgreeOn c s₂) (h₁ : exec i s₁ = .next t₁) (h₂ : exec i s₂ = .next t₂) :
    t₁.AgreeOn c t₂ := by
  cases i with
  | init srate => exact exec_agreeOn_init hs h₁ h₂
  | setfreq cid offs =>
    refine exec_agreeOn_client hs h₁ h₂ (fun _ => nofun) fun hrun (hc : c = cid) => ?_
    subst hc
    rw [exec_setfreq_row h₁, exec_setfreq_row h₂, acceptsClient_congr hs, hs.srate hrun, hs.row hrun]
  | process cid x y =>
    refine exec_agreeOn_client hs h₁ h₂ (fun _ => nofun) fun hrun (hc : c = cid) => ?_
    subst hc
    rw [exec_process_row h₁, exec_process_row h₂, acceptsClient_congr hs, hs.row hrun]

theorem act_agreeOn (hs : s₁.AgreeOn c s₂) (h₁ : act a s₁ = .next t₁) (h₂ : act a s₂ = .next t₂) :
    t₁.AgreeOn c t₂ := by
  cases a with
  | rst =>
    cases h₁
    cases h₂
    exact ⟨hs.cfg, rfl, fun hrun => by simp at hrun, fun hrun => by simp at hrun⟩
  | cmd w =>
    cases hdecode : decode w with
    | error e =>
      simp only [act, execWord, hdecode] at h₁ h₂
      cases h₁
      cases h₂
      exact ⟨hs.cfg, hs.inited, hs.srate, hs.row⟩
    | ok i =>
      rw [act_cmd_of_decode_ok hdecode] at h₁ h₂
      exact exec_agreeOn hs h₁ h₂

theorem inited_of_processesClient (h : processesClient c a s = true) : s.inited = true := by
  simp only [processesClient] at h
  split at h
  · simp only [acceptsClient, Bool.and_eq_true] at h
    obtain ⟨-, hinited, -⟩ := h
    exact hinited
  · cases h

/-- The oscillator sample is read at the phase of the client's own row (R130). -/
theorem oscillatorSample_congr (hs : s₁.AgreeOn c s₂) :
    oscillatorSample c a s₁ = oscillatorSample c a s₂ := by
  have hp : processesClient c a s₁ = processesClient c a s₂ := by simp only [processesClient, acceptsClient_congr hs]
  simp only [oscillatorSample, ← hp]
  cases hp₁ : processesClient c a s₁ with
  | false => rfl
  | true =>
    have hrow := hs.row (inited_of_processesClient hp₁)
    simp only [State.ncoStep, hrow]
    cases s₂.row c <;> rfl

/-! ## Two runs that agree on what touches the client -/

/-- A run that answers performed its first part, and then the rest. -/
theorem runActions_of_append (h : runActions (as₁ ++ as₂) s = .next t) :
    ∃ u, runActions as₁ s = .next u ∧ runActions as₂ u = .next t := by
  induction as₁ generalizing s with
  | nil => exact ⟨s, rfl, h⟩
  | cons a as ih =>
    obtain ⟨v, hact, hrest⟩ := runActions_cons h
    obtain ⟨u, hu, ht⟩ := ih hrest
    exact ⟨u, by simp only [runActions, hact, hu], ht⟩

/-- By induction on the first run: its next action either does not touch the client, or is the first of the second run
that does. -/
theorem runActions_agreeOn (hs : s₁.AgreeOn c s₂)
    (hacts : as₁.filter (touchesClient c) = as₂.filter (touchesClient c))
    (h₁ : runActions as₁ s₁ = .next t₁) (h₂ : runActions as₂ s₂ = .next t₂) :
    t₁.AgreeOn c t₂ ∧ oscillatorSamples c as₁ s₁ = oscillatorSamples c as₂ s₂ := by
  induction as₁ generalizing s₁ s₂ as₂ with
  | nil =>
    cases h₁
    have hnone : ∀ a ∈ as₂, touchesClient c a = false := by simpa using hacts
    obtain ⟨hagree, hsamples⟩ := runActions_of_not_touches hnone h₂
    exact ⟨hs.trans hagree.symm, hsamples.symm⟩
  | cons a as₁ ih =>
    obtain ⟨u₁, hact₁, hrest₁⟩ := runActions_cons h₁
    cases ha : touchesClient c a with
    | false =>
      rw [List.filter_cons_of_neg (by simp [ha])] at hacts
      obtain ⟨hagree, hsamples⟩ := ih ((act_agreeOn_of_not_touches ha hact₁).trans hs) hacts hrest₁ h₂
      refine ⟨hagree, ?_⟩
      simp only [oscillatorSamples, hact₁, oscillatorSample_of_not_touches ha, hsamples, List.nil_append]
    | true =>
      rw [List.filter_cons_of_pos ha] at hacts
      obtain ⟨before, after, rfl, hbefore, -, hafter⟩ := List.filter_eq_cons_iff.mp hacts.symm
      obtain ⟨v₂, hv₂, hrest₂⟩ := runActions_of_append h₂
      obtain ⟨u₂, hact₂, hrest₂⟩ := runActions_cons hrest₂
      obtain ⟨hkept, hsilent⟩ := runActions_of_not_touches (fun b hb => by simpa using hbefore b hb) hv₂
      have hv : s₁.AgreeOn c v₂ := hs.trans hkept.symm
      obtain ⟨hagree, hsamples⟩ := ih (act_agreeOn hv hact₁ hact₂) hafter.symm hrest₁ hrest₂
      refine ⟨hagree, ?_⟩
      rw [oscillatorSamples_append c hv₂, hsilent, List.nil_append]
      simp only [oscillatorSamples, hact₁, hact₂, hsamples, oscillatorSample_congr hv]

/-- Settles O54, from `runActions_agreeOn`. -/
theorem oscillatorsOfClientsAreIndependent : Obligations.OscillatorsOfClientsAreIndependent := by
  intro s₁ s₂ t₁ t₂ acts₁ acts₂ c _ _ hcfg hinited hrun hacts h₁ h₂
  have hs : s₁.AgreeOn c s₂ := ⟨hcfg, hinited, fun h => (hrun h).1, fun h => (hrun h).2⟩
  obtain ⟨hagree, hsamples⟩ := runActions_agreeOn hs hacts h₁ h₂
  exact ⟨hagree.inited, hagree.row, hsamples⟩

end Sys2Proof.Machine

/-! PROOF. The byte form of words in files (20_memory.md R43): the bytes of a number are its digits in base 256, and
they give the number back. -/

namespace Sys2Proof

/-! ## Bytes of a number -/

@[simp] theorem littleEndian_length (n x : Nat) : (littleEndian n x).length = n := by
  induction n generalizing x with
  | zero => rfl
  | succ n ih => rw [littleEndian, List.length_cons, ih]

/-- Byte `k` is digit `k` in base 256. -/
theorem littleEndian_getElem?_toNat {n k : Nat} (hk : k < n) (x : Nat) :
    ((littleEndian n x)[k]?).map BitVec.toNat = some (x / 256 ^ k % 256) := by
  induction n generalizing k x with
  | zero => exact absurd hk (Nat.not_lt_zero k)
  | succ n ih =>
    cases k with
    | zero => simp [littleEndian]
    | succ k =>
      rw [littleEndian, List.getElem?_cons_succ, ih (Nat.lt_of_succ_lt_succ hk), Nat.div_div_eq_div_mul,
        ← Nat.pow_succ']

/-- `n` bytes hold a number modulo `256 ^ n`. -/
theorem ofLittleEndian_littleEndian (n x : Nat) : ofLittleEndian (littleEndian n x) = x % 256 ^ n := by
  induction n generalizing x with
  | zero => simp [littleEndian, ofLittleEndian, Nat.mod_one]
  | succ n ih =>
    rw [Nat.pow_succ', Nat.mod_mul, littleEndian, ofLittleEndian, ih, BitVec.toNat_ofNat]

/-! ## Bytes of a word -/

@[simp] theorem bytesOfWord_length (w : BitVec 64) : (bytesOfWord w).length = 8 := littleEndian_length 8 w.toNat

@[simp] theorem bytesOfEvent_length (e : EvtWord) : (bytesOfEvent e).length = 10 := littleEndian_length 10 e.toNat

/-- Eight bytes hold a 64-bit word without loss. -/
theorem ofLittleEndian_bytesOfWord (w : BitVec 64) : ofLittleEndian (bytesOfWord w) = w.toNat := by
  rw [bytesOfWord, ofLittleEndian_littleEndian]
  exact Nat.mod_eq_of_lt w.isLt

theorem decodeBytes_bytesOfWord_append (w : CmdWord) (rest : List (BitVec 8)) :
    decodeBytes (bytesOfWord w ++ rest) = some (decode w, rest) := by
  have hlong : ¬ (bytesOfWord w ++ rest).length < 8 := by simp
  have hword : BitVec.ofNat 64 (ofLittleEndian (bytesOfWord w)) = w := by
    rw [ofLittleEndian_bytesOfWord, BitVec.ofNat_toNat, BitVec.setWidth_eq]
  rw [decodeBytes, if_neg hlong, List.take_left' (bytesOfWord_length w), List.drop_left' (bytesOfWord_length w), hword]

/-- Settles O8. -/
theorem commandBytesReadBack : Obligations.CommandBytesReadBack :=
  ⟨decodeBytes_bytesOfWord_append,
    fun w => ⟨bytesOfWord_length w, fun _ hk => littleEndian_getElem?_toNat hk w.toNat⟩,
    fun e => ⟨bytesOfEvent_length e, fun _ hk => littleEndian_getElem?_toNat hk e.toNat⟩⟩

end Sys2Proof

/-! PROOF. The order of the host's actions (20_memory.md R48) and `SETFREQ` issued again (R45). -/

namespace Sys2Proof.Machine

variable {s t : State} {cid : ClientIx} {offs : Word}

/-- Settles O13, by induction on the actions: an action carries the list pending behind it along, so the step that takes
it from the whole list and the run with only `rest` pending reach states that differ in that list alone. -/
theorem stepsTakeTheActionsInOrder : Obligations.StepsTakeTheActionsInOrder := by
  intro acts rest s hpending
  induction acts generalizing s with
  | nil =>
    obtain rfl : s.pending = rest := hpending
    rfl
  | cons a acts ih =>
    rw [List.cons_append] at hpending
    rw [List.length_cons, core_run_succ, step_of_pending_cons hpending, runActions, act_withPending s a (acts ++ rest),
      act_withPending s a rest]
    cases act a s with
    | next u => exact ih { u with pending := acts ++ rest } rfl
    | fault f => rfl
    | refused r => rfl

/-! ## `SETFREQ` issued again -/

/-- What `SETFREQ` does to the register file: nothing if it is rejected, and otherwise a new control word in the
client's row (R112, R113). -/
theorem exec_setfreq_clients (h : exec (.setfreq cid offs) s = .next t) :
    t.clients = if acceptsClient cid s then
        s.clients.modify cid.toNat fun r => { r with fcw := fcw offs.toInt s.srate.toNat }
      else s.clients := by
  simp only [exec, execSetfreq] at h
  split at h
  next st hrej =>
    cases h
    simp [acceptsClient_iff, hrej]
  next hrej =>
    split at h
    next => cases h
    next r hr =>
      cases h
      have hget : s.clients[cid.toNat]? = some r := hr
      simp [acceptsClient_iff, hrej, List.modify_eq_set_getElem?, hget]

/-- Settles O21: the second `SETFREQ` is accepted exactly when the first was, at the same rate, so it writes the control
word that already stands in the row. -/
theorem setfreqTwiceWritesTheSame : Obligations.SetfreqTwiceWritesTheSame := by
  intro s t u cid offs hst htu
  obtain ⟨hcfg₁, -, hinited₁, hsrate₁, -⟩ := setfreqFrame s t cid offs hst
  obtain ⟨hcfg, hpending, hinited, hsrate, hsht, -⟩ := setfreqFrame t u cid offs htu
  have haccepts : acceptsClient cid t = acceptsClient cid s := by simp only [acceptsClient, hcfg₁, hinited₁]
  have hclients : u.clients = t.clients := by
    rw [exec_setfreq_clients htu, exec_setfreq_clients hst, haccepts, hsrate₁]
    cases acceptsClient cid s with
    | false => rfl
    | true => simp [List.modify_modify_eq, Function.comp_def]
  rw [hcfg, hpending, hinited, hsrate, hsht, hclients]

end Sys2Proof.Machine

/-! PROOF. Decoding and encoding as inverses of each other, the field conditions under which a word is each command,
the rows of the opcode table, and the assembler (30_encoding.md R61 to R66, R72, R74, R75, R80). -/

namespace Sys2Proof

variable {w : CmdWord}

/-! ## A word and its fields -/

/-- R61: a command word is its four fields side by side. -/
theorem append_fields (w : CmdWord) : opcField w ++ cidField w ++ rsvField w ++ argField w = w := by
  have hclient : opcField w ++ cidField w = w.extractLsb' 52 12 :=
    BitVec.extractLsb'_append_extractLsb'_eq_extractLsb' rfl
  have hreserved : w.extractLsb' 52 12 ++ rsvField w = w.extractLsb' 32 32 :=
    BitVec.extractLsb'_append_extractLsb'_eq_extractLsb' rfl
  have hall : w.extractLsb' 32 32 ++ argField w = w.extractLsb' 0 64 :=
    BitVec.extractLsb'_append_extractLsb'_eq_extractLsb' rfl
  rw [hclient, hreserved, hall, BitVec.extractLsb'_eq_self]

theorem cmdWord_eq_iff (w v : CmdWord) :
    w = v ↔ opcField w = opcField v ∧ cidField w = cidField v ∧ rsvField w = rsvField v ∧ argField w = argField v := by
  constructor
  · rintro rfl
    exact ⟨rfl, rfl, rfl, rfl⟩
  · rintro ⟨hopc, hcid, hrsv, harg⟩
    rw [← append_fields w, ← append_fields v, hopc, hcid, hrsv, harg]

/-- R65: the two samples fill the argument field. -/
theorem append_sampleFields (w : CmdWord) : ismpField w ++ qsmpField w = argField w :=
  BitVec.extractLsb'_append_extractLsb'_eq_extractLsb' rfl

theorem ismpField_eq_extractLsb' (w : CmdWord) : ismpField w = (argField w).extractLsb' 16 16 := by
  rw [← append_sampleFields, BitVec.extractLsb'_append_eq_left]

theorem qsmpField_eq_extractLsb' (w : CmdWord) : qsmpField w = (argField w).extractLsb' 0 16 := by
  rw [← append_sampleFields, BitVec.extractLsb'_append_eq_right]

@[simp] theorem ismpField_encode_process (cid : ClientIx) (i q : Sample) :
    ismpField (encode (.process cid i q)) = i := by
  rw [ismpField_eq_extractLsb', argField_encode]
  exact BitVec.extractLsb'_append_eq_left

@[simp] theorem qsmpField_encode_process (cid : ClientIx) (i q : Sample) :
    qsmpField (encode (.process cid i q)) = q := by
  rw [qsmpField_eq_extractLsb', argField_encode]
  exact BitVec.extractLsb'_append_eq_right

/-! ## When a word is which command (R74) -/

theorem decode_eq_init_iff (srate : Word) :
    decode w = .ok (.init srate) ↔
      rsvField w = 0#20 ∧ opcField w = 1#4 ∧ cidField w = 0#8 ∧ argField w = srate := by
  constructor
  · intro h
    obtain ⟨hrsv, ⟨hopc, hcid, hi⟩ | ⟨-, hi⟩ | ⟨-, hi⟩⟩ := decode_ok_cases w _ h
    · cases hi
      exact ⟨hrsv, hopc, hcid, rfl⟩
    · cases hi
    · cases hi
  · rintro ⟨hrsv, hopc, hcid, rfl⟩
    simp [decode, hrsv, hopc, hcid]

theorem decode_eq_setfreq_iff (cid : ClientIx) (offs : Word) :
    decode w = .ok (.setfreq cid offs) ↔
      rsvField w = 0#20 ∧ opcField w = 2#4 ∧ cidField w = cid ∧ argField w = offs := by
  constructor
  · intro h
    obtain ⟨hrsv, ⟨-, -, hi⟩ | ⟨hopc, hi⟩ | ⟨-, hi⟩⟩ := decode_ok_cases w _ h
    · cases hi
    · cases hi
      exact ⟨hrsv, hopc, rfl, rfl⟩
    · cases hi
  · rintro ⟨hrsv, hopc, rfl, rfl⟩
    simp [decode, hrsv, hopc]

theorem decode_eq_process_iff (cid : ClientIx) (i q : Sample) :
    decode w = .ok (.process cid i q) ↔
      rsvField w = 0#20 ∧ opcField w = 3#4 ∧ cidField w = cid ∧ ismpField w = i ∧ qsmpField w = q := by
  constructor
  · intro h
    obtain ⟨hrsv, ⟨-, -, hi⟩ | ⟨-, hi⟩ | ⟨hopc, hi⟩⟩ := decode_ok_cases w _ h
    · cases hi
    · cases hi
    · cases hi
      exact ⟨hrsv, hopc, rfl, rfl, rfl⟩
  · rintro ⟨hrsv, hopc, rfl, rfl, rfl⟩
    simp [decode, hrsv, hopc]

/-- R72: a word is a command exactly when none of the three causes holds. -/
theorem exists_decode_eq_ok_iff (w : CmdWord) :
    (∃ i, decode w = .ok i) ↔
      rsvField w = 0#20 ∧ ((opcField w = 1#4 ∧ cidField w = 0#8) ∨ opcField w = 2#4 ∨ opcField w = 3#4) := by
  constructor
  · rintro ⟨i, h⟩
    obtain ⟨hrsv, ⟨hopc, hcid, -⟩ | ⟨hopc, -⟩ | ⟨hopc, -⟩⟩ := decode_ok_cases w i h
    · exact ⟨hrsv, .inl ⟨hopc, hcid⟩⟩
    · exact ⟨hrsv, .inr (.inl hopc)⟩
    · exact ⟨hrsv, .inr (.inr hopc)⟩
  · rintro ⟨hrsv, ⟨hopc, hcid⟩ | hopc | hopc⟩
    · exact ⟨_, (decode_eq_init_iff _).mpr ⟨hrsv, hopc, hcid, rfl⟩⟩
    · exact ⟨_, (decode_eq_setfreq_iff _ _).mpr ⟨hrsv, hopc, rfl, rfl⟩⟩
    · exact ⟨_, (decode_eq_process_iff _ _ _).mpr ⟨hrsv, hopc, rfl, rfl, rfl⟩⟩

theorem exists_decode_eq_error_iff (w : CmdWord) : (∃ e, decode w = .error e) ↔ ¬ ∃ i, decode w = .ok i := by
  cases decode w <;> simp

/-! ## Encoding and decoding -/

/-- Settles O1: an encoded command has its own operation code and operands in its fields, which is what `decode`
tests and reads. -/
theorem decodeOfEncode : Obligations.DecodeOfEncode := by
  intro i
  cases i with
  | init srate => exact Machine.decode_encode_init srate
  | setfreq cid offs =>
    exact (decode_eq_setfreq_iff cid offs).mpr
      ⟨by simp, by simp [Instr.opc], by simp [Instr.cid], by simp [Instr.arg]⟩
  | process cid i q =>
    exact (decode_eq_process_iff cid i q).mpr
      ⟨by simp, by simp [Instr.opc], by simp [Instr.cid], by simp, by simp⟩

/-- Settles O2: the two words agree in all four fields; the reserved one is zero in both. -/
theorem encodeOfDecodedWord : Obligations.EncodeOfDecodedWord := by
  intro w i h
  obtain ⟨hopc, hcid⟩ := decode_ok_echo w i h
  obtain ⟨hrsv, hi⟩ := decode_ok_cases w i h
  have harg : i.arg = argField w := by
    obtain ⟨-, -, rfl⟩ | ⟨-, rfl⟩ | ⟨-, rfl⟩ := hi
    · rfl
    · rfl
    · exact append_sampleFields w
  rw [cmdWord_eq_iff, opcField_encode, cidField_encode, rsvField_encode, argField_encode]
  exact ⟨hopc, hcid, hrsv.symm, harg⟩

/-! ## Field conditions on the number of the word -/

theorem opcField_eq_iff (w : CmdWord) (k : BitVec 4) : opcField w = k ↔ w.toNat / 2 ^ 60 = k.toNat := by
  rw [← BitVec.toNat_inj, opcField_toNat]

theorem cidField_eq_iff (w : CmdWord) (c : ClientIx) : cidField w = c ↔ w.toNat / 2 ^ 52 % 2 ^ 8 = c.toNat := by
  rw [← BitVec.toNat_inj, cidField_toNat]

theorem rsvField_eq_iff (w : CmdWord) (k : BitVec 20) : rsvField w = k ↔ w.toNat / 2 ^ 32 % 2 ^ 20 = k.toNat := by
  rw [← BitVec.toNat_inj, rsvField_toNat]

/-- R72 with the fields as numbers. -/
theorem exists_decode_eq_ok_iff_toNat (w : CmdWord) :
    (∃ i, decode w = .ok i) ↔ w.toNat / 2 ^ 32 % 2 ^ 20 = 0 ∧
      ((w.toNat / 2 ^ 60 = 1 ∧ w.toNat / 2 ^ 52 % 2 ^ 8 = 0) ∨ w.toNat / 2 ^ 60 = 2 ∨ w.toNat / 2 ^ 60 = 3) := by
  simp only [exists_decode_eq_ok_iff, rsvField_eq_iff, opcField_eq_iff, cidField_eq_iff, BitVec.toNat_ofNat,
    Nat.reducePow, Nat.reduceMod]

theorem argField_toInt (w : CmdWord) : (argField w).toInt =
    if w.toNat % 2 ^ 32 < 2 ^ 31 then ((w.toNat % 2 ^ 32 : Nat) : Int)
    else ((w.toNat % 2 ^ 32 : Nat) : Int) - 2 ^ 32 := by
  rw [BitVec.toInt_eq_toNat_cond, argField_toNat]
  split <;> split <;> omega

/-- A sample read as a signed number, from its unsigned one (R14). -/
theorem sample_toInt (x : Sample) :
    x.toInt = if x.toNat < 2 ^ 15 then (x.toNat : Int) else (x.toNat : Int) - 2 ^ 16 := by
  rw [BitVec.toInt_eq_toNat_cond]
  split <;> split <;> omega

/-- Settles O3: the conditions on the fields are those of the `decode_eq_…_iff` lemmas, read as numbers. -/
theorem decodeReadsTheFields : Obligations.DecodeReadsTheFields := by
  intro w opc cid rsv arg hi lo
  have hrsv : rsv = 0 ↔ rsvField w = 0#20 := (rsvField_eq_iff w 0#20).symm
  have hopc (k : BitVec 4) : opc = k.toNat ↔ opcField w = k := (opcField_eq_iff w k).symm
  have hcid : cid = 0 ↔ cidField w = 0#8 := (cidField_eq_iff w 0#8).symm
  have herror (h : ¬ (rsv = 0 ∧ ((opc = 1 ∧ cid = 0) ∨ opc = 2 ∨ opc = 3))) : ∃ e, decode w = .error e :=
    (exists_decode_eq_error_iff w).mpr fun hok => h ((exists_decode_eq_ok_iff_toNat w).mp hok)
  refine ⟨fun h => herror (by omega), fun h0 h1 h2 => ?_, fun h0 h1 h2 => herror (by omega), fun h0 h2 => ?_,
    fun h0 h3 => ?_, fun h0 h1 h2 h3 => herror (by omega)⟩
  · exact ⟨argField w, (decode_eq_init_iff _).mpr ⟨hrsv.mp h0, (hopc 1#4).mp h1, hcid.mp h2, rfl⟩, argField_toNat w⟩
  · exact ⟨cidField w, argField w, (decode_eq_setfreq_iff _ _).mpr ⟨hrsv.mp h0, (hopc 2#4).mp h2, rfl, rfl⟩,
      cidField_toNat w, argField_toInt w⟩
  · exact ⟨cidField w, ismpField w, qsmpField w,
      (decode_eq_process_iff _ _ _).mpr ⟨hrsv.mp h0, (hopc 3#4).mp h3, rfl, rfl, rfl⟩, cidField_toNat w,
      by rw [sample_toInt, ismpField_toNat], by rw [sample_toInt, qsmpField_toNat]⟩

/-! ## The rows of the opcode table -/

/-- A mask acts on each field by itself. -/
theorem and_eq_iff (w m v : CmdWord) :
    w &&& m = v ↔ opcField w &&& opcField m = opcField v ∧ cidField w &&& cidField m = cidField v ∧
      rsvField w &&& rsvField m = rsvField v ∧ argField w &&& argField m = argField v := by
  rw [cmdWord_eq_iff]
  unfold opcField cidField rsvField argField
  simp only [BitVec.extractLsb'_and]

/-- The mask of `INIT`'s row covers `OPC`, `CID` and `RSV` (R63). -/
theorem and_initMask_eq_iff (w : CmdWord) :
    w &&& 0xFFFFFFFF00000000#64 = 0x1000000000000000#64 ↔
      rsvField w = 0#20 ∧ opcField w = 1#4 ∧ cidField w = 0#8 := by
  have hopc : opcField 0xFFFFFFFF00000000#64 = BitVec.allOnes 4 := rfl
  have hcid : cidField 0xFFFFFFFF00000000#64 = BitVec.allOnes 8 := rfl
  have hrsv : rsvField 0xFFFFFFFF00000000#64 = BitVec.allOnes 20 := rfl
  have harg : argField 0xFFFFFFFF00000000#64 = 0#32 := rfl
  have hopc' : opcField 0x1000000000000000#64 = 1#4 := rfl
  have hcid' : cidField 0x1000000000000000#64 = 0#8 := rfl
  have hrsv' : rsvField 0x1000000000000000#64 = 0#20 := rfl
  have harg' : argField 0x1000000000000000#64 = 0#32 := rfl
  rw [and_eq_iff, hopc, hcid, hrsv, harg, hopc', hcid', hrsv', harg']
  simp only [BitVec.and_allOnes, BitVec.and_zero]
  tauto

/-- The mask of the rows of `SETFREQ` and `PROCESS` covers `OPC` and `RSV` (R64, R65). -/
theorem and_clientMask_eq_iff (w : CmdWord) (k : BitVec 4) :
    w &&& 0xF00FFFFF00000000#64 = k ++ 0#60 ↔ rsvField w = 0#20 ∧ opcField w = k := by
  have hopc : opcField 0xF00FFFFF00000000#64 = BitVec.allOnes 4 := rfl
  have hcid : cidField 0xF00FFFFF00000000#64 = 0#8 := rfl
  have hrsv : rsvField 0xF00FFFFF00000000#64 = BitVec.allOnes 20 := rfl
  have harg : argField 0xF00FFFFF00000000#64 = 0#32 := rfl
  have hopc' : opcField (k ++ 0#60) = k := BitVec.extractLsb'_append_eq_left
  have hcid' : cidField (k ++ 0#60) = 0#8 := by revert k; decide
  have hrsv' : rsvField (k ++ 0#60) = 0#20 := by revert k; decide
  have harg' : argField (k ++ 0#60) = 0#32 := by revert k; decide
  rw [and_eq_iff, hopc, hcid, hrsv, harg, hopc', hcid', hrsv', harg']
  simp only [BitVec.and_allOnes, BitVec.and_zero]
  tauto

/-- A signed operand is congruent to the number in its field. -/
theorem toInt_emod_two_pow {n : Nat} (x : BitVec n) : x.toInt % 2 ^ n = x.toNat := by
  have hlt : (x.toNat : Int) < (2 ^ n : Nat) := by exact_mod_cast x.isLt
  calc x.toInt % 2 ^ n = (x.toNat : Int).bmod (2 ^ n) % (2 ^ n : Nat) := by
        rw [BitVec.toInt_eq_toNat_bmod]; push_cast; rfl
    _ = x.toNat := by rw [Int.bmod_emod, Int.emod_eq_of_lt (Int.natCast_nonneg _) hlt]

/-- Settles O6: each mask and match states the field conditions under which the word decodes to its row's command. -/
theorem opcodeTableRowsSelectTheirCommands : Obligations.OpcodeTableRowsSelectTheirCommands := by
  intro w
  refine ⟨?init, ?setfreq, ?process, fun srate h => ?initOperand, fun cid offs h => ?setfreqOperands,
    fun cid i q h => ?processOperands⟩
  case init =>
    rw [and_initMask_eq_iff]
    simp only [decode_eq_init_iff, exists_and_left, exists_eq', and_true]
  case setfreq =>
    rw [show 0x2000000000000000#64 = 2#4 ++ 0#60 from rfl, and_clientMask_eq_iff]
    simp only [decode_eq_setfreq_iff, exists_and_left, exists_eq', and_true]
  case process =>
    rw [show 0x3000000000000000#64 = 3#4 ++ 0#60 from rfl, and_clientMask_eq_iff]
    simp only [decode_eq_process_iff, exists_and_left, exists_eq', and_true]
  case initOperand =>
    obtain ⟨-, -, -, rfl⟩ := (decode_eq_init_iff srate).mp h
    exact argField_toNat w
  case setfreqOperands =>
    obtain ⟨-, -, rfl, rfl⟩ := (decode_eq_setfreq_iff cid offs).mp h
    exact ⟨cidField_toNat w, by rw [toInt_emod_two_pow, argField_toNat]⟩
  case processOperands =>
    obtain ⟨-, -, rfl, rfl, rfl⟩ := (decode_eq_process_iff cid i q).mp h
    exact ⟨cidField_toNat w, by rw [toInt_emod_two_pow, ismpField_toNat], by rw [toInt_emod_two_pow, qsmpField_toNat]⟩

/-! ## The assembler -/

theorem toNat_ofInt_of_range {n : Nat} {x : Int} (h0 : 0 ≤ x) (h : x < 2 ^ n) :
    ((BitVec.ofInt n x).toNat : Int) = x := by
  rw [BitVec.toNat_ofInt, Int.toNat_of_nonneg (Int.emod_nonneg _ (by positivity))]
  exact Int.emod_eq_of_lt h0 (by exact_mod_cast h)

theorem assemble_eq_none {l : SourceLine} (h : ¬ SourceLine.wellFormed l = true) : assemble l = none := if_neg h

theorem assemble_init {srate : Int} (h : SourceLine.wellFormed (.init srate) = true) :
    assemble (.init srate) = some (encode (.init (BitVec.ofInt 32 srate))) := if_pos h

theorem assemble_setfreq {cid offs : Int} (h : SourceLine.wellFormed (.setfreq cid offs) = true) :
    assemble (.setfreq cid offs) = some (encode (.setfreq (BitVec.ofInt 8 cid) (BitVec.ofInt 32 offs))) := if_pos h

theorem assemble_process {cid i q : Int} (h : SourceLine.wellFormed (.process cid i q) = true) :
    assemble (.process cid i q) =
      some (encode (.process (BitVec.ofInt 8 cid) (BitVec.ofInt 16 i) (BitVec.ofInt 16 q))) := if_pos h

theorem wellFormed_init_iff (srate : Int) :
    SourceLine.wellFormed (.init srate) = true ↔ 0 ≤ srate ∧ srate ≤ 4294967295 := by
  simp only [SourceLine.wellFormed, srateInRange, Bool.and_eq_true, decide_eq_true_eq]

theorem wellFormed_setfreq_iff (cid offs : Int) :
    SourceLine.wellFormed (.setfreq cid offs) = true ↔
      (0 ≤ cid ∧ cid ≤ 255) ∧ (-2147483648 ≤ offs ∧ offs ≤ 2147483647) := by
  simp only [SourceLine.wellFormed, cidInRange, offsInRange, Bool.and_eq_true, decide_eq_true_eq]

theorem wellFormed_process_iff (cid i q : Int) :
    SourceLine.wellFormed (.process cid i q) = true ↔
      (0 ≤ cid ∧ cid ≤ 255) ∧ (-32768 ≤ i ∧ i ≤ 32767) ∧ (-32768 ≤ q ∧ q ≤ 32767) := by
  simp only [SourceLine.wellFormed, cidInRange, sampleInRange, Bool.and_eq_true, decide_eq_true_eq, and_assoc]

/-- Settles O9: outside the ranges of R75 there is no word, and inside them the assembled word is the encoding of a
command, which decodes to it with operands that their fields hold without loss. -/
theorem assemblerChecksOperandRanges : Obligations.AssemblerChecksOperandRanges := by
  have hsample {x : Int} (h : -32768 ≤ x ∧ x ≤ 32767) : (BitVec.ofInt 16 x).toInt = x :=
    BitVec.toInt_ofInt_eq_self (by decide) (by omega) (by omega)
  refine ⟨fun srate h => ?init, fun srate h => assemble_eq_none (mt (wellFormed_init_iff srate).mp h),
    fun cid offs h => ?setfreq, fun cid offs h => assemble_eq_none (mt (wellFormed_setfreq_iff cid offs).mp h),
    fun cid i q h => ?process, fun cid i q h => assemble_eq_none (mt (wellFormed_process_iff cid i q).mp h)⟩
  case init =>
    have hword := assemble_init ((wellFormed_init_iff srate).mpr h)
    exact ⟨_, _, hword, decodeOfEncode _, toNat_ofInt_of_range (by omega) (by omega)⟩
  case setfreq =>
    have hword := assemble_setfreq ((wellFormed_setfreq_iff cid offs).mpr h)
    obtain ⟨hcid, hoffs⟩ := h
    exact ⟨_, _, _, hword, decodeOfEncode _, toNat_ofInt_of_range (by omega) (by omega),
      BitVec.toInt_ofInt_eq_self (by decide) (by omega) (by omega)⟩
  case process =>
    have hword := assemble_process ((wellFormed_process_iff cid i q).mpr h)
    obtain ⟨hcid, hi, hq⟩ := h
    exact ⟨_, _, _, _, hword, decodeOfEncode _, toNat_ofInt_of_range (by omega) (by omega), hsample hi, hsample hq⟩

/-! ## Words written out in the rules -/

/-- Settles O5. -/
theorem wordsOfTheTestVectorsDecode : Obligations.WordsOfTheTestVectorsDecode := by
  unfold Obligations.WordsOfTheTestVectorsDecode
  decide

/-- Settles O7. -/
theorem workedEncodings : Obligations.WorkedEncodings := by
  unfold Obligations.WorkedEncodings
  decide

end Sys2Proof

/-! PROOF. What a command puts on the ports: its events and then its one response, their words as numbers, and that no
step of a well-formed state is without an answer (30_encoding.md R67, R70 to R72, R78, R79; 70_reset_and_hazards.md
R221). -/

namespace Sys2Proof.Machine

variable {s t : State} {i : Instr} {w : CmdWord} {cid : ClientIx}

/-! ## Words on the ports as numbers -/

theorem Status.code_toNat_le (st : Status) : st.code.toNat ≤ 5 := by
  cases st <;> decide

theorem Event.kind_toNat_bounds (e : Event) : 1 ≤ e.kind.toNat ∧ e.kind.toNat ≤ 3 := by
  cases e <;> simp [Event.kind]

/-- R67, for the fields above `DATA`. -/
theorem rspWord_fields (opc : BitVec 4) (cid : ClientIx) (st : Status) (d : Word) :
    (rspWord opc cid st d).toNat / 2 ^ 52 = opc.toNat * 2 ^ 8 + cid.toNat ∧
      (rspWord opc cid st d).toNat / 2 ^ 48 % 2 ^ 4 = st.code.toNat ∧
      (rspWord opc cid st d).toNat / 2 ^ 32 % 2 ^ 16 = 0 := by
  have hcid := cid.isLt
  have hst := st.code.isLt
  have hd := d.isLt
  rw [rspWord_toNat]
  omega

/-- R70. -/
theorem Event.word_fields (e : Event) :
    e.word.toNat / 2 ^ 76 = e.kind.toNat ∧ e.word.toNat / 2 ^ 72 % 2 ^ 4 = 0 ∧
      e.word.toNat / 2 ^ 64 % 2 ^ 8 = e.client.toNat ∧ e.word.toNat % 2 ^ 64 = e.payload.toNat := by
  have hclient := e.client.isLt
  have hpayload := e.payload.isLt
  rw [Event.word_toNat]
  omega

/-- The two fields that a response echoes stand at the top of the command word (R61, R67). -/
theorem opcField_cidField_toNat (w : CmdWord) :
    (opcField w).toNat * 2 ^ 8 + (cidField w).toNat = w.toNat / 2 ^ 52 := by
  rw [opcField_toNat, cidField_toNat]
  omega

/-! ## What a command puts on the ports -/

/-- From `s` to `t` the ports carried at most two events, all of client `cid`. -/
def State.Emitted (cid : ClientIx) (s t : State) : Prop :=
  ∃ evs : List Event, t.trace = s.trace ++ evs.map (fun e => .evt e.word) ∧ evs.length ≤ 2 ∧
    ∀ e ∈ evs, e.client = cid

/-- From `s` to `t` the ports carried at most two events, all of client `cid`, and then one response that echoes `opc`
and `cid`. -/
def State.AnsweredAs (opc : BitVec 4) (cid : ClientIx) (s t : State) : Prop :=
  ∃ (evs : List Event) (st : Status) (d : Word),
    t.trace = s.trace ++ evs.map (fun e => .evt e.word) ++ [.rsp (rspWord opc cid st d)] ∧
      evs.length ≤ 2 ∧ ∀ e ∈ evs, e.client = cid

theorem State.Emitted.of_trace_eq (h : t.trace = s.trace) : s.Emitted cid t :=
  ⟨[], by simp [h], by simp, by simp⟩

theorem State.Emitted.answer (h : s.Emitted cid t) (opc : BitVec 4) (st : Status) (d : Word) :
    s.AnsweredAs opc cid (t.answer opc cid st d) := by
  obtain ⟨evs, htrace, hlength, hclient⟩ := h
  exact ⟨evs, st, d, by rw [State.answer_trace, htrace], hlength, hclient⟩

theorem State.emitted_announceFreq (s : State) (cid : ClientIx) (offs v : Word) :
    s.Emitted cid (s.announceFreq cid offs v) := by
  rw [State.announceFreq_eq]
  by_cases hoffs : offs = s.cfg.defaultOffsetHz
  · exact ⟨[.tuneReq cid (offs.toInt + s.cfg.refFreqHz)], by simp [hoffs], by simp, by simp [Event.client]⟩
  · exact ⟨[.tuneReq cid (offs.toInt + s.cfg.refFreqHz), .freqChanged cid offs v], by simp [hoffs], by simp,
      by simp [Event.client]⟩

theorem State.emitted_adapt (s : State) (cid : ClientIx) (si : Int) : s.Emitted cid (s.adapt cid si) := by
  rcases s.adapt_cases cid si with ⟨-, e⟩ | ⟨-, e⟩
  · exact ⟨[.gainAdapted cid (s.sht + 1#4)], by simp [e], by simp, by simp [Event.client]⟩
  · exact .of_trace_eq (by rw [e])

theorem exec_answeredAs (h : exec i s = .next t) : s.AnsweredAs i.opc i.cid t := by
  obtain ⟨_, rfl⟩ | ⟨_, rfl, _, _, rfl⟩ | ⟨cid, offs, r, rfl, _, _, _, rfl⟩ | ⟨cid, x, _, r, rfl, _, _, _, rfl⟩ :=
    exec_cases s t i h
  case inl => exact (State.Emitted.of_trace_eq rfl).answer _ _ _
  case inr.inl => exact (State.Emitted.of_trace_eq (by simp)).answer _ _ _
  case inr.inr.inl => exact (State.emitted_announceFreq (s.setRow cid _) cid offs _).answer _ _ _
  case inr.inr.inr => exact (State.emitted_adapt (s.setRow cid _) cid _).answer _ _ _

theorem act_cmd_of_decode_error {e : Illegal} (h : decode w = .error e) :
    act (.cmd w) s = .next (s.reject (opcField w) (cidField w) .errIllegalCmd) := by
  simp only [act, execWord, h]

/-- Legal or not, a command is answered with the `OPC` and `CID` bits of its own word. -/
theorem act_cmd_answeredAs (h : act (.cmd w) s = .next t) : s.AnsweredAs (opcField w) (cidField w) t := by
  cases hdecode : decode w with
  | error e =>
    rw [act_cmd_of_decode_error hdecode] at h
    cases h
    exact (State.Emitted.of_trace_eq rfl).answer _ _ _
  | ok i =>
    rw [act_cmd_of_decode_ok hdecode] at h
    obtain ⟨hopc, hcid⟩ := decode_ok_echo w i hdecode
    rw [← hopc, ← hcid]
    exact exec_answeredAs h

/-- Settles O43: `State.AnsweredAs` with the words read as numbers. -/
theorem oneResponsePerCommand : Obligations.OneResponsePerCommand := by
  intro w s t h
  obtain ⟨evs, st, d, htrace, hlength, -⟩ := act_cmd_answeredAs h
  obtain ⟨hecho, hstatus, hzero⟩ := rspWord_fields (opcField w) (cidField w) st d
  refine ⟨evs.map Event.word, _, ?_, by rwa [List.length_map], hecho.trans (opcField_cidField_toNat w),
    hstatus.trans_le st.code_toNat_le, hzero⟩
  rw [htrace, List.map_map]
  rfl

/-- Settles O44: what a command adds to the record are words of events of its client and a response. -/
theorem eventsCarryKindAndClient : Obligations.EventsCarryKindAndClient := by
  refine ⟨fun w s t e h he => ?_, fun s t h => ?_⟩
  · obtain ⟨evs, st, d, htrace, -, hclient⟩ := act_cmd_answeredAs h
    rw [htrace, List.append_assoc, List.drop_left] at he
    obtain ⟨ev, hev, rfl⟩ : ∃ ev ∈ evs, ev.word = e := by simpa using he
    obtain ⟨hkind, hzero, hcid, -⟩ := ev.word_fields
    obtain ⟨hlow, hhigh⟩ := ev.kind_toNat_bounds
    rw [hkind, hcid, hclient ev hev, cidField_toNat]
    exact ⟨hlow, hhigh, hzero, rfl⟩
  · cases h
    exact s.afterReset_trace

/-- Settles O4: by R72 with the fields as numbers, an illegal word is one that does not decode. -/
theorem illegalWordsAreRejectedInEveryState : Obligations.IllegalWordsAreRejectedInEveryState := by
  intro w s opc cid rsv illegal
  have hillegal : illegal ↔ ¬ ∃ i, decode w = .ok i := by
    rw [exists_decode_eq_ok_iff_toNat]
    change ((opc = 0 ∨ 4 ≤ opc) ∨ rsv ≠ 0 ∨ (opc = 1 ∧ cid ≠ 0)) ↔
      ¬ (rsv = 0 ∧ ((opc = 1 ∧ cid = 0) ∨ opc = 2 ∨ opc = 3))
    omega
  refine ⟨fun h => ?_, fun h => not_not.mp (mt hillegal.mpr h)⟩
  obtain ⟨e, he⟩ := (exists_decode_eq_error_iff w).mpr (hillegal.mp h)
  refine ⟨rspWord (opcField w) (cidField w) .errIllegalCmd 0#32, ?_, act_cmd_of_decode_error he⟩
  rw [rspWord_toNat, opcField_toNat, cidField_toNat]
  simp [opc, cid, Status.code]

/-! ## Payloads -/

@[simp] theorem Event.word_payload (e : Event) : e.word.extractLsb' 0 64 = e.payload :=
  BitVec.extractLsb'_append_eq_right

theorem freqChanged_payload_toNat (offs v : Word) :
    (Event.freqChanged cid offs v).payload.toNat = v.toNat * 2 ^ 32 + offs.toNat := by
  change (v ++ offs).toNat = _
  rw [BitVec.toNat_append, ← Nat.shiftLeft_add_eq_or_of_lt offs.isLt, Nat.shiftLeft_eq]

theorem gainAdapted_payload_toNat (sht : Shift) : (Event.gainAdapted cid sht).payload.toNat = sht.toNat := by
  change (0#60 ++ sht).toNat = _
  rw [BitVec.toNat_append, BitVec.toNat_ofNat, Nat.zero_mod, Nat.zero_shiftLeft, Nat.zero_or]

/-- With an offset of 32 bits and a reference frequency in R10's range the sum is a 64-bit integer. -/
theorem tuneReq_payload_toInt {cfg : Config} (hcfg : cfg.Admissible) (offs : Word) :
    (Event.tuneReq cid (offs.toInt + cfg.refFreqHz)).payload.toInt = offs.toInt + cfg.refFreqHz := by
  obtain ⟨-, -, hlow, hhigh⟩ := hcfg
  have hge := offs.le_toInt
  have hlt := offs.toInt_lt
  exact BitVec.toInt_ofInt_eq_self (by decide) (by omega) (by omega)

/-- Settles O45: the fields of an event word, with the payload of each kind read as a number. -/
theorem eventPayloads : Obligations.EventPayloads := by
  refine ⟨fun cfg cid offs hcfg => ?tuneReq, fun cid offs v => ?freqChanged, fun cid sht => ?gainAdapted⟩
  case tuneReq =>
    obtain ⟨hkind, -⟩ := (Event.tuneReq cid (offs.toInt + cfg.refFreqHz)).word_fields
    exact ⟨hkind, by rw [Event.word_payload, tuneReq_payload_toInt hcfg]⟩
  case freqChanged =>
    obtain ⟨hkind, -, -, hpayload⟩ := (Event.freqChanged cid offs v).word_fields
    exact ⟨hkind, hpayload.trans (freqChanged_payload_toNat offs v)⟩
  case gainAdapted =>
    obtain ⟨hkind, -, -, hpayload⟩ := (Event.gainAdapted cid sht).word_fields
    exact ⟨hkind, hpayload.trans (gainAdapted_payload_toNat sht)⟩

/-! ## Every step answers -/

@[simp] theorem responseCount_append (l m : List Transfer) :
    responseCount (l ++ m) = responseCount l + responseCount m := List.countP_append ..

@[simp] theorem responseCount_events (evs : List Event) :
    responseCount (evs.map fun e => .evt e.word) = 0 := by
  simp [responseCount]

@[simp] theorem responseCount_rsp (r : RspWord) : responseCount [.rsp r] = 1 := rfl

theorem State.AnsweredAs.responseCount {opc : BitVec 4} (h : s.AnsweredAs opc cid t) :
    responseCount t.trace = responseCount s.trace + 1 := by
  obtain ⟨evs, st, d, htrace, -⟩ := h
  simp [htrace]

theorem act_pending {a : HostAction} (h : act a s = .next t) : t.pending = s.pending := by
  have hsame := act_withPending s a s.pending
  rw [h] at hsame
  have hpending := congrArg State.pending (Host.Outcome.next.inj hsame)
  exact hpending

/-- The one fault needs an accepted client without a row, and a well-formed state has a row for every client. -/
theorem State.WF.exists_row (hs : s.WF) (h : rejectionOfClient cid s = none) : ∃ r, s.row cid = some r := by
  obtain ⟨-, hlength, -⟩ := hs
  obtain ⟨-, hcid⟩ := (rejectionOfClient_eq_none s cid).mp h
  exact s.row_eq_some cid (hlength ▸ hcid)

theorem exec_answers (hs : s.WF) (i : Instr) : ∃ t, exec i s = .next t := by
  cases i with
  | init srate =>
    simp only [exec, execInit]
    split <;> exact ⟨_, rfl⟩
  | setfreq cid offs =>
    simp only [exec, execSetfreq]
    split
    next => exact ⟨_, rfl⟩
    next hacc =>
      obtain ⟨r, hr⟩ := hs.exists_row hacc
      simp [hr]
  | process cid x y =>
    simp only [exec, execProcess]
    split
    next => exact ⟨_, rfl⟩
    next hacc =>
      obtain ⟨r, hr⟩ := hs.exists_row hacc
      simp [State.ncoStep, hr]

theorem act_answers (hs : s.WF) (a : HostAction) : ∃ t, act a s = .next t := by
  cases a with
  | rst => exact ⟨_, rfl⟩
  | cmd w =>
    cases hdecode : decode w with
    | error e => exact ⟨_, act_cmd_of_decode_error hdecode⟩
    | ok i =>
      rw [act_cmd_of_decode_ok hdecode]
      exact exec_answers hs i

theorem step_answers (hs : s.WF) : SafeStep s := by
  unfold SafeStep
  cases hpending : s.pending with
  | nil => exact ⟨s, step_of_pending_nil hpending⟩
  | cons a rest =>
    rw [step_of_pending_cons hpending]
    exact act_answers (hs.withPending rest) a

/-- Settles O48: the step of a pending command is `act`, which adds one response and carries the other actions along. -/
theorem everyStepAnswers : Obligations.EveryStepAnswers := by
  refine fun s hs => ⟨step_answers hs, fun w rest t hpending hstep => ?_⟩
  rw [step_of_pending_cons hpending] at hstep
  exact ⟨act_pending hstep, (act_cmd_answeredAs hstep).responseCount⟩

end Sys2Proof.Machine

/-! PROOF. The command `INIT` (40_init_table.md R92 to R94). -/

namespace Sys2Proof.Machine

/-- Settles O15: an `INIT` that meets neither cause of R92 is accepted, and `State.initialise` says what it writes. -/
theorem initCompletes : Obligations.InitCompletes := by
  intro s srate hinited hrate
  refine ⟨_, exec_init_of_accepted hinited hrate, rfl, rfl, rfl, by simp, fun c hc => by simp [hc], ?_⟩
  have hword : rspWord 1#4 0#8 .ok 0#32 = 0x1000000000000000#64 := by decide
  simp [Instr.opc, Instr.cid, hword]

theorem exec_init_of_rejected {s : State} {srate : Word} {st : Status} (h : rejectionOfInit srate s = some st) :
    exec (.init srate) s = .next { s with trace := s.trace ++ [.rsp (rspWord 1#4 0#8 st 0#32)] } := by
  simp only [exec, execInit, h]
  rfl

/-- Settles O16: each clause is one cause of R92, and a rejected `INIT` leaves the state that the next one needs. -/
theorem initRejectionsInOrder : Obligations.InitRejectionsInOrder := by
  intro s srate
  refine ⟨fun hinited => ?_, fun hinited hrate => ⟨?_, fun rate h => ?_⟩⟩
  · exact exec_init_of_rejected ((rejectionOfInit_eq_some s srate _).mpr (.inl ⟨hinited, rfl⟩))
  · exact exec_init_of_rejected ((rejectionOfInit_eq_some s srate _).mpr (.inr ⟨hinited, hrate, rfl⟩))
  · exact ⟨_, exec_init_of_accepted hinited h, rfl⟩

end Sys2Proof.Machine

/-! PROOF. The shape of the Oscillator Table: its quarters, its symmetries, where it rises and falls, where it is zero
and where it peaks (40_init_table.md R97 items 1 to 7). -/

namespace Sys2Proof.Machine

variable {j k m : Nat}

/-! ## The four quarters (R170) -/

theorem tabHalf_eq_tabQuarter (hm : m ≤ 16384) : tabHalf m = tabQuarter m := if_pos hm

theorem tabHalf_sub (hm : m ≤ 16384) : tabHalf (32768 - m) = tabQuarter m := by
  rcases hm.eq_or_lt with rfl | hlt
  · exact tabHalf_eq_tabQuarter le_rfl
  · rw [tabHalf, if_neg (by omega), Nat.sub_sub_self (by omega)]

theorem tabInt_eq_tabHalf (hk : k ≤ 32768) : tabInt k = tabHalf k := if_pos hk

/-- The second half wave is the first one negated; they meet in the zero entry 32768. -/
theorem tabInt_add_eq_neg_tabHalf (hk : k ≤ 32768) : tabInt (32768 + k) = -tabHalf k := by
  rcases Nat.eq_zero_or_pos k with rfl | hpos
  · have hzero : tabHalf (32768 - 0) = 0 := (tabHalf_sub (Nat.zero_le _)).trans tabQuarter_zero
    simp only [Nat.sub_zero] at hzero
    rw [Nat.add_zero, tabInt_eq_tabHalf le_rfl, hzero, tabHalf_eq_tabQuarter (Nat.zero_le _), tabQuarter_zero]
    rfl
  · rw [tabInt, if_neg (by omega), Nat.add_sub_cancel_left]

theorem tabInt_firstQuarter (hm : m ≤ 16384) : tabInt m = tabQuarter m := by
  rw [tabInt_eq_tabHalf (by omega), tabHalf_eq_tabQuarter hm]

theorem tabInt_secondQuarter (hm : m ≤ 16384) : tabInt (32768 - m) = tabQuarter m := by
  rw [tabInt_eq_tabHalf (Nat.sub_le _ _), tabHalf_sub hm]

theorem tabInt_thirdQuarter (hm : m ≤ 16384) : tabInt (32768 + m) = -tabQuarter m := by
  rw [tabInt_add_eq_neg_tabHalf (by omega), tabHalf_eq_tabQuarter hm]

theorem tabInt_fourthQuarter (hm : m ≤ 16384) : tabInt (65536 - m) = -tabQuarter m := by
  rw [show 65536 - m = 32768 + (32768 - m) by omega, tabInt_add_eq_neg_tabHalf (Nat.sub_le _ _), tabHalf_sub hm]

/-- Every index is an index of the first quarter, mirrored or moved by a half wave or both. -/
theorem exists_firstQuarter_index (hk : k < 65536) :
    ∃ m ≤ 16384, k = m ∨ k = 32768 - m ∨ k = 32768 + m ∨ k = 65536 - m := by
  by_cases h1 : k ≤ 16384
  · exact ⟨k, h1, .inl rfl⟩
  by_cases h2 : k ≤ 32768
  · exact ⟨32768 - k, by omega, by omega⟩
  by_cases h3 : k ≤ 49152
  · exact ⟨k - 32768, by omega, by omega⟩
  · exact ⟨65536 - k, by omega, by omega⟩

/-! ## The symmetries (R97 items 2 to 4) -/

theorem tabInt_add_halfWave (hk : k ≤ 32768) : tabInt (32768 + k) = -tabInt k := by
  rw [tabInt_add_eq_neg_tabHalf hk, tabInt_eq_tabHalf hk]

theorem tabInt_mirror (hk : k ≤ 32768) : tabInt (32768 - k) = tabInt k := by
  rcases le_total k 16384 with hle | hge
  · rw [tabInt_secondQuarter hle, tabInt_firstQuarter hle]
  · obtain ⟨m, hm, rfl⟩ : ∃ m ≤ 16384, k = 32768 - m := ⟨32768 - k, by omega, by omega⟩
    rw [Nat.sub_sub_self (by omega), tabInt_firstQuarter hm, tabInt_secondQuarter hm]

theorem tabInt_reflect (hk : k ≤ 65536) : tabInt (65536 - k) = -tabInt k := by
  have lower {i : Nat} (hi : i ≤ 32768) : tabInt (65536 - i) = -tabInt i := by
    rw [show 65536 - i = 32768 + (32768 - i) by omega, tabInt_add_halfWave (Nat.sub_le _ _), tabInt_mirror hi]
  rcases le_total k 32768 with hle | hge
  · exact lower hle
  · have := lower (i := 65536 - k) (by omega)
    rw [Nat.sub_sub_self hk] at this
    omega

/-- Settles O57: the sums and differences of 16-bit indices are those of the symmetries, wrapped where a half wave
leaves the table. -/
theorem tableSymmetries : Obligations.TableSymmetries := by
  refine ⟨fun k => ?_, fun k => ?_, fun k hk => ?_⟩
  · rw [tabRead_toInt, tabRead_toInt]
    rcases Nat.lt_or_ge k.toNat 32768 with hlt | hge
    · rw [show (k + 32768#16).toNat = 32768 + k.toNat by simp [BitVec.toNat_add]; omega, tabInt_add_halfWave hlt.le]
    · obtain ⟨i, hi⟩ := Nat.exists_eq_add_of_le hge
      have hlt := k.isLt
      rw [show (k + 32768#16).toNat = i by simp [BitVec.toNat_add]; omega, hi, tabInt_add_halfWave (by omega), neg_neg]
  · rw [tabRead_toInt, tabRead_toInt]
    by_cases hzero : k = 0#16
    · subst hzero
      decide +kernel
    · have hne : k.toNat ≠ 0 := fun h => hzero (BitVec.eq_of_toNat_eq h)
      rw [show (-k).toNat = 65536 - k.toNat by simp [BitVec.toNat_neg]; omega, tabInt_reflect k.isLt.le]
  · rw [tabRead, tabRead, show (32768#16 - k).toNat = 32768 - k.toNat by simp [BitVec.toNat_sub]; omega,
      tabInt_mirror hk]

/-! ## Rise and fall (R97 item 5) -/

theorem tabQuarter_mono (hjk : j ≤ k) (hk : k ≤ 16384) : tabQuarter j ≤ tabQuarter k := by
  induction k, hjk using Nat.le_induction with
  | base => exact le_rfl
  | succ k _ ih =>
    rw [tabQuarter_succ k hk]
    exact (ih (by omega)).trans (Nat.le_add_right _ _)

/-- Settles O58: each quarter rises or falls as the first one rises; in the middle two the fall goes through 0. -/
theorem tableRisesAndFalls : Obligations.TableRisesAndFalls := by
  refine ⟨fun j k hjk hk => ?_, fun j k hj hjk hk => ?_, fun j k hj hjk hk => ?_⟩
  · rw [tabInt_firstQuarter hk, tabInt_firstQuarter (hjk.trans hk)]
    exact_mod_cast tabQuarter_mono hjk hk
  · have second {i : Nat} (h1 : 16384 ≤ i) (h2 : i ≤ 32768) : tabInt i = tabQuarter (32768 - i) := by
      rw [← tabInt_secondQuarter (by omega), Nat.sub_sub_self h2]
    have third {i : Nat} (h1 : 32768 ≤ i) (h2 : i ≤ 49152) : tabInt i = -tabQuarter (i - 32768) := by
      rw [← tabInt_thirdQuarter (by omega), Nat.add_sub_cancel' h1]
    rcases le_total k 32768 with hk2 | hk2
    · have := tabQuarter_mono (j := 32768 - k) (k := 32768 - j) (by omega) (by omega)
      rw [second hj (by omega), second (by omega) hk2]
      omega
    · rw [third hk2 hk]
      rcases le_total j 32768 with hj2 | hj2
      · rw [second hj hj2]
        omega
      · have := tabQuarter_mono (j := j - 32768) (k := k - 32768) (by omega) (by omega)
        rw [third hj2 (by omega)]
        omega
  · have fourth {i : Nat} (h1 : 49152 ≤ i) (h2 : i ≤ 65536) : tabInt i = -tabQuarter (65536 - i) := by
      rw [← tabInt_fourthQuarter (by omega), Nat.sub_sub_self h2]
    have := tabQuarter_mono (j := 65536 - k) (k := 65536 - j) (by omega) (by omega)
    rw [fourth hj (by omega), fourth (by omega) (by omega)]
    omega

/-! ## Zeros and peaks (R97 items 1, 6, 7) -/

theorem tabQuarter_top : tabQuarter 16384 = 32768 := by decide +kernel

theorem tabQuarter_eq_zero_iff (hm : m ≤ 16384) : tabQuarter m = 0 ↔ m = 0 := by
  have hone : tabQuarter 1 = 3 := by decide +kernel
  refine ⟨fun h => ?_, fun h => h ▸ tabQuarter_zero⟩
  by_contra hne
  have := tabQuarter_mono (j := 1) (by omega) hm
  omega

theorem tabQuarter_eq_top_iff (hm : m ≤ 16384) : tabQuarter m = 32768 ↔ 16327 ≤ m := by
  have hbefore : tabQuarter 16326 = 32767 := by decide +kernel
  have hfirst : tabQuarter 16327 = 32768 := by decide +kernel
  refine ⟨fun h => ?_, fun h => ?_⟩
  · by_contra hlt
    have := tabQuarter_mono (j := m) (k := 16326) (by omega) (by omega)
    omega
  · have := tabQuarter_mono h hm
    have := tabQuarter_le m hm
    omega

/-- Settles O59: the values 0 and 32768 of the first quarter, carried to the other three. -/
theorem tableZerosAndPeaks : Obligations.TableZerosAndPeaks := by
  intro k
  rw [tabRead_toInt]
  have hk := k.isLt
  obtain ⟨m, hm, hcases⟩ := exists_firstQuarter_index hk
  have hle := tabQuarter_le m hm
  have hzero := tabQuarter_eq_zero_iff hm
  have htop := tabQuarter_eq_top_iff hm
  rcases hcases with hkm | hkm | hkm | hkm <;> rw [hkm] at hk ⊢
  · rw [tabInt_firstQuarter hm]
    omega
  · rw [tabInt_secondQuarter hm]
    omega
  · rw [tabInt_thirdQuarter hm]
    omega
  · rw [tabInt_fourthQuarter hm]
    omega

end Sys2Proof.Machine

/-! PROOF. The checksums of the Oscillator Table (40_init_table.md R97 item 10): sums over the whole table are folded
into its first quarter, whose sums are evaluated. -/

namespace Sys2Proof.Machine

open Finset

theorem list_sum_range {M : Type} [AddCommMonoid M] (f : Nat → M) (n : Nat) :
    ((List.range n).map f).sum = ∑ k ∈ range n, f k := by
  rw [← List.sum_toFinset f List.nodup_range, List.toFinset_range]

/-- The whole table, each entry together with the one half a wave later. -/
theorem sum_halfWaves {M : Type} [AddCommMonoid M] (g : Nat → M) :
    ∑ k ∈ range 65536, g k = ∑ k ∈ range 32768, (g k + g (32768 + k)) := by
  rw [sum_add_distrib, ← sum_range_add g 32768 32768]

/-- The first half wave holds the first quarter twice, and of its end points 0 and 32768 each once. -/
theorem sum_tabHalf {g : Nat → Nat} {S : Nat} (hg : g 0 = 0) (hS : ∑ k ∈ range 16384, g (tabQuarter k) = S) :
    ∑ k ∈ range 32768, g (tabHalf k) = 2 * S + g 32768 := by
  have hlower : ∑ k ∈ range 16384, g (tabHalf k) = ∑ k ∈ range 16384, g (tabQuarter k) :=
    sum_congr rfl fun k hk => by rw [tabHalf_eq_tabQuarter (mem_range.mp hk).le]
  have hupper : ∑ k ∈ range 16384, g (tabHalf (16384 + k)) = ∑ k ∈ range 16384, g (tabQuarter (k + 1)) := by
    rw [← sum_range_reflect]
    refine sum_congr rfl fun k hk => ?_
    have hlt := mem_range.mp hk
    rw [show 16384 + (16384 - 1 - k) = 32768 - (k + 1) by omega, tabHalf_sub (by omega)]
  have hshift := sum_range_succ (fun k => g (tabQuarter k)) 16384
  rw [sum_range_succ', tabQuarter_zero, hg, tabQuarter_top] at hshift
  rw [sum_range_add (fun k => g (tabHalf k)) 16384 16384, hlower, hupper]
  omega

theorem sum_natAbs_tabInt {g : Nat → Nat} {S : Nat} (hg : g 0 = 0)
    (hS : ∑ k ∈ range 16384, g (tabQuarter k) = S) :
    ∑ k ∈ range 65536, g (tabInt k).natAbs = 4 * S + 2 * g 32768 := by
  have hpair : ∀ k ∈ range 32768, g (tabInt k).natAbs + g (tabInt (32768 + k)).natAbs = 2 * g (tabHalf k) := by
    intro k hk
    have hlt := mem_range.mp hk
    rw [tabInt_eq_tabHalf hlt.le, tabInt_add_eq_neg_tabHalf hlt.le, Int.natAbs_neg, Int.natAbs_natCast]
    omega
  rw [sum_halfWaves, sum_congr rfl hpair, ← mul_sum, sum_tabHalf hg hS]
  omega

theorem sum_tabInt : ∑ k ∈ range 65536, tabInt k = 0 := by
  rw [sum_halfWaves]
  refine sum_eq_zero fun k hk => ?_
  rw [tabInt_add_halfWave (mem_range.mp hk).le, add_neg_cancel]

/-- Half a wave later an entry is negated and its index is 32768 more, so only 32768 times the entry is left. -/
theorem sum_index_mul_tabInt {S : Nat} (hS : ∑ k ∈ range 32768, tabHalf k = S) :
    ∑ k ∈ range 65536, (k : Int) * tabInt k = -32768 * S := by
  have hpair : ∀ k ∈ range 32768,
      (k : Int) * tabInt k + (32768 + k : Nat) * tabInt (32768 + k) = -32768 * (tabHalf k : Int) := by
    intro k hk
    have hlt := mem_range.mp hk
    rw [tabInt_eq_tabHalf hlt.le, tabInt_add_eq_neg_tabHalf hlt.le]
    push_cast
    ring
  rw [sum_halfWaves, sum_congr rfl hpair, ← mul_sum, ← Nat.cast_sum, hS]

theorem sum_firstQuarter : ∑ k ∈ range 16384, tabQuarter k = 341766218 := by
  rw [← list_sum_range, sum_tabQuarter fun _ v => v]
  decide +kernel

theorem sum_sq_firstQuarter : ∑ k ∈ range 16384, tabQuarter k ^ 2 = 8795554868882 := by
  rw [← list_sum_range, sum_tabQuarter fun _ v => v ^ 2]
  decide +kernel

/-- Settles O60: the four sums, folded into the first quarter. -/
theorem tableChecksums : Obligations.TableChecksums := by
  refine ⟨?_, ?_, ?_, ?_⟩ <;> rw [list_sum_range]
  · exact sum_tabInt
  · exact sum_natAbs_tabInt (g := fun v => v) rfl sum_firstQuarter
  · exact sum_natAbs_tabInt (g := fun v => v ^ 2) rfl sum_sq_firstQuarter
  · rw [sum_index_mul_tabInt (sum_tabHalf (g := fun v => v) rfl sum_firstQuarter)]
    rfl

end Sys2Proof.Machine

/-! PROOF. The Oscillator Table is the rounded sine (40_init_table.md R95). The sine differs from a Taylor polynomial by
less than the distance that R96 finds between the exact values and the half-integers, so it is enough to compare each
entry of the first quarter with that polynomial, which is done in natural numbers; R97's symmetries give the rest. -/

namespace Sys2Proof.Machine

/-! ## The Taylor polynomial of the sine -/

/-- The terms of degree 1 to 15 of the Taylor series of the sine. -/
noncomputable def sinePolynomial (y : ℝ) : ℝ :=
  y - y ^ 3 / 6 + y ^ 5 / 120 - y ^ 7 / 5040 + y ^ 9 / 362880 - y ^ 11 / 39916800 + y ^ 13 / 6227020800 -
    y ^ 15 / 1307674368000

/-- It is the imaginary part of the exponential series at `iy`, up to degree 15. -/
theorem im_expSum_eq_sinePolynomial (y : ℝ) :
    (∑ j ∈ Finset.range 16, (y * Complex.I) ^ j / (j.factorial : ℂ)).im = sinePolynomial y := by
  have hterm (j : ℕ) :
      ((y * Complex.I) ^ j / (j.factorial : ℂ)).im = y ^ j / j.factorial * (Complex.I ^ (j % 4)).im := by
    rw [mul_pow, mul_div_right_comm, ← Complex.ofReal_pow, ← Complex.ofReal_natCast, ← Complex.ofReal_div,
      Complex.im_ofReal_mul, Complex.I_pow_eq_pow_mod]
  rw [Complex.im_sum, Finset.sum_congr rfl fun j _ => hterm j]
  simp [Finset.sum_range_succ, Nat.factorial, sinePolynomial]
  ring

theorem abs_sin_sub_sinePolynomial_le {y : ℝ} (hy : |y| ≤ 8) :
    |Real.sin y - sinePolynomial y| ≤ |y| ^ 16 / Nat.factorial 16 * 2 := by
  have hnorm : ‖(y : ℂ) * Complex.I‖ = |y| := by simp
  have hratio : ‖(y : ℂ) * Complex.I‖ / Nat.succ 16 ≤ 1 / 2 := by
    rw [hnorm]
    norm_num
    linarith
  have him := (Complex.abs_im_le_norm _).trans (Complex.exp_bound' hratio)
  rwa [Complex.sub_im, Complex.exp_ofReal_mul_I_im, im_expSum_eq_sinePolynomial, hnorm] at him

/-! ## The comparison in natural numbers -/

/-- `15! d^15` times the positive terms of the polynomial at `n / d`. -/
def sinePlus (n d : Nat) : Nat :=
  n * (1307674368000 * d ^ 14 + n ^ 4 * (10897286400 * d ^ 10 + n ^ 4 * (3603600 * d ^ 6 + n ^ 4 * (210 * d ^ 2))))

/-- `15! d^15` times the negative terms, without their sign. -/
def sineMinus (n d : Nat) : Nat :=
  n ^ 3 * (217945728000 * d ^ 12 + n ^ 4 * (259459200 * d ^ 8 + n ^ 4 * (32760 * d ^ 4 + n ^ 4)))

theorem sinePlus_sub_sineMinus (n : Nat) {d : Nat} (hd : 0 < d) :
    (sinePlus n d : ℝ) - sineMinus n d = 1307674368000 * d ^ 15 * sinePolynomial (n / d) := by
  have hd0 : (d : ℝ) ≠ 0 := by positivity
  simp only [sinePlus, sineMinus, sinePolynomial]
  push_cast
  field_simp
  ring

/-- `v` is within `1/2 - 10^-5` of 32768 times the polynomial at `n / d`. -/
abbrev NearSine (n d v : Nat) : Prop :=
  3276800000 * sinePlus n d ≤ 3276800000 * sineMinus n d + (100000 * v + 49999) * (1307674368000 * d ^ 15) ∧
    3276800000 * sineMinus n d + 100000 * v * (1307674368000 * d ^ 15) ≤
      3276800000 * sinePlus n d + 49999 * (1307674368000 * d ^ 15)

theorem NearSine.abs_sub_le {n d v : Nat} (hd : 0 < d) (h : NearSine n d v) :
    |32768 * sinePolynomial (n / d) - v| ≤ 49999 / 100000 := by
  obtain ⟨hupper, hlower⟩ := h
  have hpoly := sinePlus_sub_sineMinus n hd
  have hD : (0 : ℝ) < 1307674368000 * d ^ 15 := by positivity
  rify at hupper hlower
  generalize (1307674368000 * d ^ 15 : ℝ) = D at *
  rw [abs_le]
  constructor <;> refine le_of_mul_le_mul_left ?_ hD <;> linarith

/-! ## Every entry of the first quarter -/

/-- A property that fails at no index of any line of R171 holds of the whole first quarter but its last index. -/
theorem forall_tabQuarter_of_rowSum {p : Nat → Nat → Prop} [∀ k v, Decidable (p k v)]
    (h : ∀ r < 256, rowSum (fun k v => if p k v then 0 else 1) r = 0) {k : Nat} (hk : k < 16384) :
    p k (tabQuarter k) := by
  have hrow := h (k / 64) (by omega)
  rw [rowSum_eq _ _ (by omega), List.sum_eq_zero_iff] at hrow
  have hentry := hrow _ (List.mem_map.mpr ⟨k % 64, List.mem_range.mpr (Nat.mod_lt _ (by decide)), rfl⟩)
  rw [Nat.div_add_mod] at hentry
  by_contra hne
  simp [hne] at hentry

/-- `2^35 pi`, rounded; so `k * scaledPi / 2^50` stands for the angle `2 pi k / 65536` of entry `k`. -/
def scaledPi : Nat := 107944301636

/-- The one evaluation over the data of R171: all 16384 entries, line by line. -/
theorem nearSine_tabQuarter : ∀ k < 16384, NearSine (k * scaledPi) (2 ^ 50) (tabQuarter k) := by
  refine fun k hk => forall_tabQuarter_of_rowSum (p := fun k v => NearSine (k * scaledPi) (2 ^ 50) v) ?_ hk
  decide +kernel

theorem abs_angle_sub_le {k : Nat} (hk : k ≤ 16384) :
    |2 * Real.pi * k / 65536 - (k * scaledPi : Nat) / (2 ^ 50 : Nat)| ≤ 1 / 10 ^ 11 := by
  have hpi : |Real.pi - scaledPi / 2 ^ 35| ≤ 1 / 10 ^ 11 := by
    have hgt := Real.pi_gt_d20
    have hlt := Real.pi_lt_d20
    rw [abs_le, scaledPi]
    constructor <;> norm_num at * <;> linarith
  have hfactor : (k : ℝ) / 32768 ≤ 1 := by
    have hk' : (k : ℝ) ≤ 16384 := mod_cast hk
    linarith
  calc |2 * Real.pi * k / 65536 - (k * scaledPi : Nat) / (2 ^ 50 : Nat)|
      = k / 32768 * |Real.pi - scaledPi / 2 ^ 35| := by
        rw [← abs_of_nonneg (a := (k : ℝ) / 32768) (by positivity), ← abs_mul]
        push_cast
        ring_nf
    _ ≤ 1 * (1 / 10 ^ 11) := by gcongr
    _ = 1 / 10 ^ 11 := one_mul _

theorem abs_angle_le {k : Nat} (hk : k ≤ 16384) : |((k * scaledPi : Nat) : ℝ) / (2 ^ 50 : Nat)| ≤ 158 / 100 := by
  have hk' : (k : ℝ) ≤ 16384 := mod_cast hk
  rw [abs_of_nonneg (by positivity), scaledPi]
  push_cast
  linarith

/-- 32768 times the sine whose rounded value entry `k` is. -/
noncomputable def scaledSine (k : Nat) : ℝ := 32768 * Real.sin (2 * Real.pi * k / 65536)

theorem abs_scaledSine_sub_tabQuarter_lt {k : Nat} (hk : k ≤ 16384) : |scaledSine k - tabQuarter k| < 1 / 2 := by
  rcases hk.eq_or_lt with rfl | hlt
  · have hangle : 2 * Real.pi * (16384 : Nat) / 65536 = Real.pi / 2 := by
      push_cast
      ring
    rw [scaledSine, hangle, Real.sin_pi_div_two, tabQuarter_top]
    norm_num
  · have hangle := abs_angle_sub_le hk
    have hy := abs_angle_le hk
    have hnear := (nearSine_tabQuarter k hlt).abs_sub_le (by positivity)
    rw [scaledSine]
    set x : ℝ := 2 * Real.pi * k / 65536
    set y : ℝ := (k * scaledPi : Nat) / (2 ^ 50 : Nat)
    have htaylor : |Real.sin y - sinePolynomial y| ≤ 2 / 10 ^ 10 := calc
      _ ≤ |y| ^ 16 / Nat.factorial 16 * 2 := abs_sin_sub_sinePolynomial_le (hy.trans (by norm_num))
      _ ≤ (158 / 100) ^ 16 / Nat.factorial 16 * 2 := by gcongr
      _ ≤ 2 / 10 ^ 10 := by norm_num [Nat.factorial]
    have hsine := (Real.abs_sin_sub_sin_le x y).trans hangle
    rw [abs_le] at hsine htaylor hnear
    rw [abs_lt]
    constructor <;> linarith

/-! ## The whole table -/

theorem scaledSine_sub {k : Nat} (hk : k ≤ 32768) : scaledSine (32768 - k) = scaledSine k := by
  rw [scaledSine, scaledSine, ← Real.sin_pi_sub, Nat.cast_sub hk]
  congr 2
  push_cast
  ring

theorem scaledSine_add (k : Nat) : scaledSine (32768 + k) = -scaledSine k := by
  rw [scaledSine, scaledSine, ← mul_neg, ← Real.sin_add_pi, Nat.cast_add]
  congr 2
  push_cast
  ring

/-- Settles O55: the sine has the symmetries by which R170 continues the first quarter. -/
theorem tableIsTheRoundedSine : Obligations.TableIsTheRoundedSine := by
  intro k
  change |scaledSine k.toNat - _| < _
  rw [tabRead_toInt]
  obtain ⟨m, hm, hcases⟩ := exists_firstQuarter_index k.isLt
  have hquarter := abs_scaledSine_sub_tabQuarter_lt hm
  have hneg : |-scaledSine m - (-tabQuarter m : Int)| < 1 / 2 := by
    rw [Int.cast_neg, Int.cast_natCast, neg_sub_neg, abs_sub_comm]
    exact hquarter
  rcases hcases with hk | hk | hk | hk <;> rw [hk]
  · rwa [tabInt_firstQuarter hm]
  · rwa [tabInt_secondQuarter hm, scaledSine_sub (by omega)]
  · rwa [tabInt_thirdQuarter hm, scaledSine_add]
  · rwa [tabInt_fourthQuarter hm, show 65536 - m = 32768 + (32768 - m) by omega, scaledSine_add,
      scaledSine_sub (by omega)]

end Sys2Proof.Machine

/-! PROOF. The control word (41_setfreq.md R111, R115, R116, R119). Everything follows from two facts about the
rounded quotient: it is an integer nearest to the exact one, and without a tie there is only one such integer. -/

namespace Sys2Proof.Machine

variable {n q q' offs : Int} {d srate : Nat}

/-! ## Nearest integers to a quotient -/

/-- `q` is an integer nearest to `n / d`. -/
def NearestQuotient (n : Int) (d : Nat) (q : Int) : Prop := 2 * (q * d - n).natAbs ≤ d

/-- `q` lies exactly half a unit from `n / d`. -/
def TiedQuotient (n : Int) (d : Nat) (q : Int) : Prop := 2 * (q * d - n).natAbs = d

/-- Without a tie two nearest integers are less than one unit apart. -/
theorem NearestQuotient.eq_of_not_tied (hq : NearestQuotient n d q) (hq' : NearestQuotient n d q')
    (htie : ¬ TiedQuotient n d q) : q' = q := by
  unfold NearestQuotient at hq hq'
  unfold TiedQuotient at htie
  have hdiff : ((q' - q) * d).natAbs < d := by
    rw [Int.sub_mul]
    omega
  have hd : ((q' - q) * d).natAbs = (q' - q).natAbs * d := by simp [Int.natAbs_mul]
  have hlt : (q' - q).natAbs < 1 := Nat.lt_of_mul_lt_mul_right (a := d) (by omega)
  omega

/-- Adding a whole number to the exact quotient adds it to the nearest integer. -/
theorem NearestQuotient.add_mul (hq : NearestQuotient n d q) (k : Int) : NearestQuotient (n + k * d) d (q + k) := by
  unfold NearestQuotient at hq ⊢
  rw [Int.add_mul, Int.add_sub_add_right]
  exact hq

/-- A tie makes an odd multiple of the rate equal to a multiple of `2 ^ 33`, and then `2 ^ 33` divides the rate. -/
theorem two_pow_dvd_of_tiedQuotient (h : TiedQuotient (offs * 4294967296) srate q) : 2 ^ 33 ∣ srate := by
  unfold TiedQuotient at h
  obtain ⟨k, hodd, hk⟩ : ∃ k : Int, Odd k ∧ k * srate = offs * 2 ^ 33 := by
    rcases Int.natAbs_eq (q * srate - offs * 4294967296) with habs | habs
    · exact ⟨2 * q - 1, ⟨q - 1, by ring⟩, by rw [Int.sub_mul, Int.mul_assoc]; omega⟩
    · exact ⟨2 * q + 1, ⟨q, rfl⟩, by rw [Int.add_mul, Int.mul_assoc]; omega⟩
  have hcoprime : IsCoprime ((2 : Int) ^ 33) k := (Int.isCoprime_two_left.mpr hodd).pow_left
  have hdvd : (2 : Int) ^ 33 ∣ srate := hcoprime.dvd_of_dvd_mul_left ⟨offs, by rw [hk, Int.mul_comm]⟩
  exact_mod_cast hdvd

/-- R116. -/
theorem not_tiedQuotient (hpos : 1 ≤ srate) (hlt : srate < 2 ^ 33) : ¬ TiedQuotient (offs * 4294967296) srate q :=
  fun h => Nat.not_le_of_lt hlt (Nat.le_of_dvd hpos (two_pow_dvd_of_tiedQuotient h))

/-! ## `round_ha` -/

/-- For a numerator that is not negative `round_ha` errs by less than half a unit downward, and by at most half a unit
upward. -/
theorem roundHalfAway_bounds_of_nonneg (hn : 0 ≤ n) (hd : 1 ≤ d) :
    -(d : Int) < 2 * (roundHalfAway n d * d - n) ∧ 2 * (roundHalfAway n d * d - n) ≤ d := by
  have hpos : (0 : Int) < 2 * d := by omega
  have hfloor := Int.ediv_mul_le (2 * n + d) hpos.ne'
  have hceil := Int.lt_ediv_add_one_mul_self (2 * n + d) hpos
  rw [← roundHalfAway_of_nonneg n d hn, Int.mul_left_comm] at hfloor
  rw [← roundHalfAway_of_nonneg n d hn, Int.add_mul, Int.mul_left_comm] at hceil
  omega

/-- R16: `round_ha` is nearest, and a tie goes away from zero. -/
theorem roundHalfAway_spec (n : Int) (hd : 1 ≤ d) :
    NearestQuotient n d (roundHalfAway n d) ∧
      (TiedQuotient n d (roundHalfAway n d) → n.natAbs < (roundHalfAway n d * d).natAbs) := by
  unfold NearestQuotient TiedQuotient
  rcases Int.le_total 0 n with hn | hn
  · obtain ⟨hlow, hhigh⟩ := roundHalfAway_bounds_of_nonneg hn hd
    omega
  · obtain ⟨hlow, hhigh⟩ := roundHalfAway_bounds_of_nonneg (Int.neg_nonneg_of_nonpos hn) hd
    rw [roundHalfAway_neg, Int.neg_mul] at hlow hhigh
    omega

/-! ## The control word -/

/-- Settles O23. -/
theorem controlWordIsTheRoundedQuotient : Obligations.ControlWordIsTheRoundedQuotient := by
  intro offs srate hrate n q
  obtain ⟨hnearest, haway⟩ := roundHalfAway_spec n hrate
  refine ⟨?_, hnearest, haway⟩
  have hword : fcw offs srate = BitVec.ofInt 32 q := fcw_eq offs srate (Nat.one_le_iff_ne_zero.mp hrate)
  rw [hword, BitVec.toNat_ofInt]
  exact Int.toNat_of_nonneg (Int.emod_nonneg q (by decide))

/-- The control word of any nearest integer: below a rate of `2 ^ 33` it is the one `round_ha` gives. -/
theorem fcw_eq_of_nearestQuotient (hpos : 1 ≤ srate) (hlt : srate < 2 ^ 33)
    (hq : NearestQuotient (offs * 4294967296) srate q) : fcw offs srate = BitVec.ofInt 32 q := by
  obtain ⟨hround, -⟩ := roundHalfAway_spec (offs * 4294967296) hpos
  rw [fcw_eq offs srate (Nat.one_le_iff_ne_zero.mp hpos), hq.eq_of_not_tied hround (not_tiedQuotient hpos hlt)]

/-- Settles O24. -/
theorem noTieInTheControlWord : Obligations.NoTieInTheControlWord :=
  fun _ _ hpos hlt => ⟨fun _ => not_tiedQuotient hpos hlt, fun _ => fcw_eq_of_nearestQuotient hpos hlt⟩

/-- A multiple of the rate adds a multiple of `2 ^ 32` to the quotient, which the word drops. -/
theorem fcw_add_mul_srate (offs m : Int) (hpos : 1 ≤ srate) (hlt : srate < 2 ^ 33) :
    fcw (offs + m * srate) srate = fcw offs srate := by
  obtain ⟨hround, -⟩ := roundHalfAway_spec (offs * 4294967296) hpos
  have hnearest := hround.add_mul (m * 4294967296)
  rw [Int.mul_right_comm, ← Int.add_mul] at hnearest
  rw [fcw_eq_of_nearestQuotient hpos hlt hnearest, fcw_eq_of_nearestQuotient hpos hlt hround]
  apply BitVec.eq_of_toInt_eq
  simp only [BitVec.toInt_ofInt]
  exact Int.add_mul_bmod_self_right _ m (2 ^ 32)

theorem fcw_zero (hpos : 1 ≤ srate) : fcw 0 srate = 0#32 := by
  rw [fcw_eq 0 srate (Nat.one_le_iff_ne_zero.mp hpos)]
  simp [roundHalfAway]

theorem fcw_mul_srate (m : Int) (hpos : 1 ≤ srate) (hlt : srate < 2 ^ 33) : fcw (m * srate) srate = 0#32 := by
  have h := fcw_add_mul_srate 0 m hpos hlt
  rwa [Int.zero_add, fcw_zero hpos] at h

/-- At half the rate the quotient is exactly `2 ^ 31`. -/
theorem fcw_half_srate {half : Nat} (hpos : 1 ≤ 2 * half) (hlt : 2 * half < 2 ^ 33) :
    fcw half (2 * half) = 0x80000000#32 := by
  have hexact : NearestQuotient ((half : Int) * 4294967296) (2 * half) 2147483648 := by
    unfold NearestQuotient
    omega
  exact fcw_eq_of_nearestQuotient hpos hlt hexact

/-- Settles O25: the word of half the rate is its own negative. -/
theorem aliasedOffsetsShareTheWord : Obligations.AliasedOffsetsShareTheWord := by
  intro offs m srate hpos hlt
  have hlt33 : srate < 2 ^ 33 := by omega
  refine ⟨fcw_add_mul_srate offs m hpos hlt33, ?_, fun half hhalf => ?_⟩
  · have h := fcw_mul_srate 1 hpos hlt33
    rwa [Int.one_mul] at h
  · subst hhalf
    have hword := fcw_half_srate hpos hlt33
    refine ⟨hword, ?_⟩
    rw [negatedOffsetNegatesTheWord half (2 * half) hpos, hword]
    decide

/-- Settles O27: at rate 1 every offset is a multiple of the rate; the other rows are evaluated. -/
theorem controlWordCornerCases : Obligations.ControlWordCornerCases := by
  refine ⟨by decide, fun offs => ?_, by decide, by decide, by decide, by decide, by decide⟩
  have h := fcw_mul_srate offs (srate := 1) (by decide) (by decide)
  rwa [Nat.cast_one, Int.mul_one] at h

end Sys2Proof.Machine

/-! PROOF. The command `SETFREQ` (41_setfreq.md R112 to R114). -/

namespace Sys2Proof.Machine

variable {s : State} {cid : ClientIx} {offs : Word}

theorem State.announceFreq_trace (w : Word) :
    (s.announceFreq cid offs w).trace =
      s.trace ++ [.evt (Event.tuneReq cid (offs.toInt + s.cfg.refFreqHz)).word] ++
        (if offs = s.cfg.defaultOffsetHz then [] else [.evt (Event.freqChanged cid offs w).word]) := by
  rw [State.announceFreq_eq, ← List.append_cons]

theorem exec_setfreq_of_accepted {r : Client} (hacc : rejectionOfClient cid s = none) (hr : s.row cid = some r) :
    exec (.setfreq cid offs) s = .next
      (((s.setRow cid { r with fcw := fcw offs.toInt s.srate.toNat }).announceFreq cid offs
        (fcw offs.toInt s.srate.toNat)).respond (.setfreq cid offs) (fcw offs.toInt s.srate.toNat)) := by
  simp only [exec, execSetfreq, hacc, hr]

theorem exec_setfreq_of_rejected {st : Status} (h : rejectionOfClient cid s = some st) :
    exec (.setfreq cid offs) s = .next { s with trace := s.trace ++ [.rsp (rspWord 2#4 cid st 0#32)] } := by
  simp only [exec, execSetfreq, h]
  rfl

/-- Settles O18: the registers by the frame of `SETFREQ` and the row it writes, the transfers by `announceFreq_eq`. -/
theorem setfreqCompletes : Obligations.SetfreqCompletes := by
  intro s cid offs hs hinited hcid
  have hacc := (rejectionOfClient_eq_none s cid).mpr ⟨hinited, hcid⟩
  obtain ⟨r, hr⟩ := hs.exists_row hacc
  have hexec := exec_setfreq_of_accepted (offs := offs) hacc hr
  obtain ⟨-, -, hinited', hsrate, hsht, -, hother, -⟩ := setfreqFrame _ _ _ _ hexec
  refine ⟨_, r, hr, hexec, ?row, hother, hinited', hsrate, hsht, ?trace⟩
  case row => rw [exec_setfreq_row hexec, if_pos (acceptsClient_iff.mpr hacc), hr, Option.map_some]
  case trace =>
    rw [State.respond_trace, State.announceFreq_trace]
    rfl

/-- Settles O19: each of the first two clauses is one cause of R113, and the third is R112's completion. -/
theorem setfreqRejectionsInOrder : Obligations.SetfreqRejectionsInOrder := by
  intro s cid offs
  refine ⟨fun hinited => ?_, fun hinited hcid => ?_, fun hs hinited hcid offs' => ?_⟩
  · exact exec_setfreq_of_rejected ((rejectionOfClient_eq_some s cid _).mpr (.inl ⟨hinited, rfl⟩))
  · exact exec_setfreq_of_rejected ((rejectionOfClient_eq_some s cid _).mpr (.inr ⟨hinited, hcid, rfl⟩))
  · obtain ⟨t, r, -, hexec, -, -, -, -, -, htrace⟩ := setfreqCompletes s cid offs' hs hinited hcid
    rw [List.append_assoc s.trace] at htrace
    exact ⟨t, _, hexec, htrace⟩

theorem act_cmd_encode (i : Instr) : act (.cmd (encode i)) s = exec i s :=
  act_cmd_of_decode_ok (decodeOfEncode i)

/-- Settles O22: `SETFREQ` changes nothing that acceptance depends on, so `PROCESS` is accepted too, and it finds the
new word beside the old phase. -/
theorem retuneKeepsThePhase : Obligations.RetuneKeepsThePhase := by
  intro s cid offs i q r hs hinited hcid hr
  obtain ⟨u, r', hr', hset, hrow, -, hinited', -⟩ := setfreqCompletes s cid offs hs hinited hcid
  obtain rfl : r' = r := Option.some.inj (hr'.symm.trans hr)
  obtain ⟨t, hproc⟩ := exec_answers (exec_wf hs hset) (.process cid i q)
  have hacc : acceptsClient cid u = true := by
    simp [acceptsClient, hinited', hinited, exec_cfg hset, hcid]
  refine ⟨t, by simp only [runActions, act_cmd_encode, hset, hproc], ?_⟩
  rw [exec_process_row hproc, if_pos hacc, hrow, Option.map_some]

end Sys2Proof.Machine

/-! PROOF. The oscillator step (42_nco_step.md R130 to R133, R136): the advanced phase and the entry read at it, and the
period of a client stepped on its own. -/

namespace Sys2Proof.Machine

variable {s : State} {c : ClientIx} {r : Client}

theorem State.ncoStep_of_row (hr : s.row c = some r) :
    s.ncoStep c = some (tabRead (tableIndex (r.phase + r.fcw)), s.setRow c { r with phase := r.phase + r.fcw }) :=
  (s.ncoStep_eq_some _ c _).mpr ⟨r, hr, rfl, rfl⟩

/-- The entry read at a phase is the one at the phase divided by `2^16`, rounded down (R131). -/
theorem tabRead_tableIndex_toInt (p : Word) : (tabRead (tableIndex p)).toInt = tabInt (p.toNat / 65536) := by
  rw [tabRead_toInt, tableIndex_toNat]

/-- Settles O28: the step rewrites one row with its old control word. -/
theorem ncoStepAddsThenLooksUp : Obligations.NcoStepAddsThenLooksUp := by
  intro s c r hr
  exact ⟨_, _, _, State.ncoStep_of_row hr, s.row_setRow_same c _ (s.lt_length_of_row c r hr), BitVec.toNat_add .., rfl,
    tabRead_tableIndex_toInt _, fun d hd => s.row_setRow_other c d _ hd, rfl⟩

/-- Before the lookup of step `n` the control word has been added `n + 1` times. -/
theorem loAfter_eq (n : Nat) (hr : s.row c = some r) :
    loAfter c n s = some (tabRead (tableIndex (r.phase + BitVec.ofNat 32 (n + 1) * r.fcw))) := by
  induction n generalizing s r with
  | zero => simp [loAfter, State.ncoStep_of_row hr]
  | succ n ih =>
    have hrow := s.row_setRow_same c { r with phase := r.phase + r.fcw } (s.lt_length_of_row c r hr)
    have hphase : r.phase + r.fcw + BitVec.ofNat 32 (n + 1) * r.fcw =
        r.phase + BitVec.ofNat 32 (n + 1 + 1) * r.fcw := by
      rw [BitVec.ofNat_add (n + 1) 1, BitVec.add_mul, BitVec.one_mul, BitVec.add_assoc,
        BitVec.add_comm r.fcw]
    simp only [loAfter, State.ncoStep_of_row hr]
    rw [ih hrow, hphase]

/-- A word added `2^32 / gcd(w, 2^32)` times brings the phase back: the product is a multiple of `2^32`. -/
theorem period_mul_eq_zero (w : Word) : BitVec.ofNat 32 (2 ^ 32 / Nat.gcd w.toNat (2 ^ 32)) * w = 0#32 := by
  have hdvd : 2 ^ 32 ∣ 2 ^ 32 / Nat.gcd w.toNat (2 ^ 32) * w.toNat := by
    rw [Nat.div_mul_right_comm (Nat.gcd_dvd_right ..), Nat.mul_comm]
    exact Nat.dvd_lcm_right ..
  apply BitVec.eq_of_toNat_eq
  rw [BitVec.toNat_mul, BitVec.toNat_ofNat, Nat.mod_mul_mod]
  exact Nat.mod_eq_zero_of_dvd hdvd

/-- Settles O29: two steps a period apart look up the same phase. -/
theorem oscillatorIsPeriodic : Obligations.OscillatorIsPeriodic := by
  intro s c r hr n
  rw [loAfter_eq _ hr, loAfter_eq _ hr, Nat.add_right_comm n, BitVec.ofNat_add (n + 1), BitVec.add_mul,
    period_mul_eq_zero, BitVec.add_zero]
  exact ⟨rfl, rfl⟩

end Sys2Proof.Machine

/-! PROOF. The first `PROCESS` of a client after `INIT` (42_nco_step.md R132): what a run keeps of a client that it does
not process or does not retune. -/

namespace Sys2Proof.Machine

variable {s t : State} {c : ClientIx} {r : Client} {a : HostAction} {as : List HostAction}

/-! ## Runs without a `PROCESS` or a `SETFREQ` of the client -/

theorem processesClient_of_not_isProcessOf (ha : isProcessOf c a = false) : processesClient c a s = false := by
  simp only [processesClient]
  split
  next cid x y hcommand =>
    simp only [isProcessOf, hcommand] at ha
    rw [ha, Bool.false_and]
  next => rfl

/-- Only an accepted `PROCESS` of the client advances its phase or reads the table for it. -/
theorem phaseIncrements_and_samples_of_no_process (has : as.any (isProcessOf c) = false) :
    phaseIncrements c as s = 0#32 ∧ oscillatorSamples c as s = [] := by
  induction as generalizing s with
  | nil => exact ⟨rfl, rfl⟩
  | cons a as ih =>
    obtain ⟨ha, has⟩ := Bool.or_eq_false_iff.mp has
    have hp : processesClient c a s = false := processesClient_of_not_isProcessOf ha
    simp only [phaseIncrements, oscillatorSamples, phaseIncrement, oscillatorSample, hp]
    cases act a s with
    | next u => simpa using ih has
    | fault f => exact ⟨rfl, rfl⟩
    | refused q => exact ⟨rfl, rfl⟩

theorem runActions_answers (hs : s.WF) : ∃ t, runActions as s = .next t := by
  induction as generalizing s with
  | nil => exact ⟨s, rfl⟩
  | cons a as ih =>
    obtain ⟨u, hact⟩ := act_answers hs a
    obtain ⟨t, hrest⟩ := ih (act_wf hs hact)
    exact ⟨t, by simp only [runActions, hact, hrest]⟩

/-- In state `RUN` only a `SETFREQ` of the client and a reset write its control word (R35). -/
theorem act_fcw (ha : a ≠ .rst) (hset : isSetfreqOf c a = false) (hs : s.inited = true) (h : act a s = .next t) :
    (t.row c).map Client.fcw = (s.row c).map Client.fcw := by
  obtain ⟨rfl, -⟩ | ⟨_, _, -, -, rfl⟩ | ⟨w, i, rfl, hdecode, hexec⟩ := act_cases s t a h
  · exact absurd rfl ha
  · rfl
  · cases i with
    | init srate =>
      obtain ⟨-, -, -, -, hframe⟩ := initFrame s t srate hexec
      obtain ⟨-, -, hclients⟩ := hframe (.inl hs)
      rw [State.row, hclients, State.row]
    | setfreq cid offs =>
      obtain ⟨-, -, -, -, -, -, hother, -⟩ := setfreqFrame s t cid offs hexec
      have hcid : cid ≠ c := by simpa [isSetfreqOf, commandOf_cmd hdecode] using hset
      rw [hother c hcid.symm]
    | process cid x y =>
      obtain ⟨-, -, -, -, -, -, hfcw, -⟩ := processFrame s t cid x y hexec
      exact hfcw c

/-- A run in state `RUN` without a `SETFREQ` of the client leaves its control word alone. -/
theorem runActions_fcw (hreset : noReset as = true) (hset : as.any (isSetfreqOf c) = false) (hs : s.inited = true)
    (h : runActions as s = .next t) : (t.row c).map Client.fcw = (s.row c).map Client.fcw := by
  induction as generalizing s with
  | nil => cases h; rfl
  | cons a as ih =>
    obtain ⟨u, hact, hrest⟩ := runActions_cons h
    obtain ⟨ha, hreset⟩ := noReset_cons.mp hreset
    obtain ⟨hseta, hset⟩ := Bool.or_eq_false_iff.mp hset
    obtain ⟨hu, -⟩ := act_lifecycle_of_inited ha hs hact
    exact (ih hreset hset hu hrest).trans (act_fcw ha hseta hs hact)

/-- A run in state `RUN` leaves the parameters, `INITED` and `SRATE` alone. -/
theorem runActions_config (hreset : noReset as = true) (hs : s.inited = true) (h : runActions as s = .next t) :
    t.cfg = s.cfg ∧ t.inited = true ∧ t.srate = s.srate := by
  refine runActions_invariant_of_noReset (P := fun u => u.cfg = s.cfg ∧ u.inited = true ∧ u.srate = s.srate) ?_ hreset h
    ⟨rfl, hs, rfl⟩
  intro a u v ha hu hact
  obtain ⟨hcfg, hinited, hsrate⟩ := hu
  obtain ⟨hinited', hsrate'⟩ := act_lifecycle_of_inited ha hinited hact
  exact ⟨(act_cfg hact).trans hcfg, hinited', hsrate'.trans hsrate⟩

theorem runActions_acceptsClient (hreset : noReset as = true) (hacc : acceptsClient c s = true)
    (h : runActions as s = .next t) : acceptsClient c t = true := by
  obtain ⟨hs, hc⟩ := Bool.and_eq_true_iff.mp hacc
  obtain ⟨hcfg, hinited, -⟩ := runActions_config hreset hs h
  rw [acceptsClient, hcfg, hinited, hc, Bool.and_self]

/-- After a run that ends in an accepted `SETFREQ` of the client, its control word is that of the offset (R112). -/
theorem runActions_fcw_of_last_setfreq {offs : Word} (hreset : noReset as = true)
    (hlast : as.getLast? = some (.cmd (encode (.setfreq c offs)))) (hacc : acceptsClient c s = true)
    (h : runActions as s = .next t) (hr : t.row c = some r) : r.fcw = fcw offs.toInt s.srate.toNat := by
  obtain ⟨front, rfl⟩ := List.getLast?_eq_some_iff.mp hlast
  obtain ⟨v, hfront, hset⟩ := runActions_of_append h
  obtain ⟨u, hexec, hend⟩ := runActions_cons hset
  cases hend
  rw [act_cmd_encode] at hexec
  obtain ⟨hs, -⟩ := Bool.and_eq_true_iff.mp hacc
  obtain ⟨hreset, -⟩ := Bool.and_eq_true_iff.mp (List.all_append.symm.trans hreset)
  obtain ⟨-, -, hsrate⟩ := runActions_config hreset hs hfront
  rw [exec_setfreq_row hexec, if_pos (runActions_acceptsClient hreset hacc hfront), hsrate,
    Option.map_eq_some_iff] at hr
  obtain ⟨_, -, rfl⟩ := hr
  rfl

/-! ## The first `PROCESS` after `INIT` -/

/-- An accepted `PROCESS` shows its client the entry at the advanced phase (R130). -/
theorem oscillatorSample_process {x y : Sample} (hacc : acceptsClient c s = true) (hr : s.row c = some r) :
    oscillatorSample c (.cmd (encode (.process c x y))) s = [tabRead (tableIndex (r.phase + r.fcw))] := by
  simp [oscillatorSample, processesClient, commandOf_cmd (decodeOfEncode _), hacc, State.ncoStep_of_row hr]

theorem oscillatorSample_init {srate : Word} : oscillatorSample c (.cmd (encode (.init srate))) s = [] := by
  simp [oscillatorSample, processesClient, commandOf_cmd (decodeOfEncode _)]

/-- The first `PROCESS` of an accepted client shows it the entry one control word beyond the phase that the run began
with. -/
theorem runActions_first_process (x y : Sample) (hs : s.WF) (hacc : acceptsClient c s = true) (hr : s.row c = some r)
    (hreset : noReset as = true) (hnoproc : as.any (isProcessOf c) = false) :
    ∃ u t r', runActions as s = .next u ∧ u.row c = some r' ∧ r'.phase = r.phase ∧
      runActions (as ++ [.cmd (encode (.process c x y))]) s = .next t ∧
      oscillatorSamples c (as ++ [.cmd (encode (.process c x y))]) s =
        [tabRead (tableIndex (r'.phase + r'.fcw))] := by
  obtain ⟨u, hu⟩ := runActions_answers hs
  obtain ⟨t, ht⟩ := runActions_answers (as := as ++ [.cmd (encode (.process c x y))]) hs
  obtain ⟨hinited, -⟩ := Bool.and_eq_true_iff.mp hacc
  obtain ⟨r', hr', hphase⟩ := runActions_phase hreset hinited hr hu
  obtain ⟨hzero, hsilent⟩ := phaseIncrements_and_samples_of_no_process hnoproc
  rw [hzero, BitVec.add_zero] at hphase
  obtain ⟨v, hproc, -⟩ := runActions_cons ((runActions_append hu).symm.trans ht)
  refine ⟨u, t, r', hu, hr', hphase, ht, ?_⟩
  rw [oscillatorSamples_append c hu, hsilent, List.nil_append]
  simp only [oscillatorSamples, hproc, List.append_nil]
  exact oscillatorSample_process (runActions_acceptsClient hreset hacc hu) hr'

/-- Settles O33: nothing has been added to the phase 0 that `INIT` wrote when the first `PROCESS` adds the control word,
which only a `SETFREQ` of the client has changed. -/
theorem firstProcessReadsTheAdvancedPhase : Obligations.FirstProcessReadsTheAdvancedPhase := by
  intro s srate acts c i q hs hinited hrate hc hreset hnoproc
  have hinit : act (.cmd (encode (.init srate))) s = .next ((s.initialise srate).respond (.init srate) 0#32) :=
    (act_cmd_encode _).trans (exec_init_of_accepted hinited hrate)
  have hacc : acceptsClient c ((s.initialise srate).respond (.init srate) 0#32) = true := by simp [acceptsClient, hc]
  have hrow : ((s.initialise srate).respond (.init srate) 0#32).row c = some _ := State.row_initialise hc
  obtain ⟨u, t, r, hu, hr, hphase, ht, hsamples⟩ :=
    runActions_first_process i q (act_wf hs hinit) hacc hrow hreset hnoproc
  refine ⟨u, t, r, tabRead (tableIndex (r.phase + r.fcw)), ?before, hr, hphase, ?all, ?samples, ?entry,
    fun hset => ?initWord, fun offs hlast => ?lastWord⟩
  case before => simpa only [runActions, hinit] using hu
  case all => simpa only [List.cons_append, runActions, hinit] using ht
  case samples =>
    simpa only [List.cons_append, oscillatorSamples, hinit, oscillatorSample_init, List.nil_append] using hsamples
  case entry => rw [tabRead_tableIndex_toInt, hphase, BitVec.zero_add]
  case initWord =>
    have hfcw := runActions_fcw hreset hset rfl hu
    rw [hr, hrow] at hfcw
    exact Option.some.inj hfcw
  case lastWord => exact runActions_fcw_of_last_setfreq hreset hlast hacc hu hr

end Sys2Proof.Machine

/-! PROOF. The arithmetic of the mixer (43_mixer.md R144, R146 to R148, R157): the products at the full-scale sample
`-32768` and away from it, and when a shifted product fits a sample. -/

namespace Sys2Proof.Machine

/-! ## Products (R144) -/

/-- The one sample of magnitude 32768 gives `-32768 * lo`; every other product is at most `32767 * 32768` in
magnitude. -/
theorem mulLo_cases (x : Sample) (k : BitVec 16) :
    (x.toInt = -32768 ∧ mulLo x (tabRead k) = -32768 * (tabRead k).toInt) ∨
      (-32768 < x.toInt ∧ (mulLo x (tabRead k)).natAbs ≤ 32767 * 32768) := by
  have hxlow : -32768 ≤ x.toInt := x.le_toInt
  rcases hxlow.eq_or_lt with hx | hx
  · exact .inl ⟨hx.symm, by rw [mulLo, ← hx]⟩
  · obtain ⟨hlow, hhigh, -⟩ := tableZerosAndPeaks k
    have hxhigh : x.toInt < 32768 := x.toInt_lt
    rw [mulLo, Int.natAbs_mul]
    exact .inr ⟨hx, Nat.mul_le_mul (by omega) (by omega)⟩

/-- Settles O34: at the sample `-32768` the product is linear in the entry, and every other product stays below the
ends. -/
theorem productsFitThirtyThreeBits : Obligations.ProductsFitThirtyThreeBits := by
  intro x k
  dsimp only
  obtain ⟨hlow, hhigh, -⟩ := tableZerosAndPeaks k
  obtain ⟨hplow, hphigh⟩ : -1073741824 ≤ mulLo x (tabRead k) ∧ mulLo x (tabRead k) ≤ 1073741824 := by
    rcases mulLo_cases x k with ⟨-, hp⟩ | ⟨-, hp⟩ <;> omega
  have hfit : (BitVec.ofInt 33 (mulLo x (tabRead k))).toInt = mulLo x (tabRead k) :=
    BitVec.toInt_ofInt_eq_self (by decide) (by omega) (by omega)
  refine ⟨rfl, hplow, hphigh, hfit, ?_⟩
  rcases mulLo_cases x k with ⟨hx, hp⟩ | ⟨hx, hp⟩
  · omega
  · omega

/-! ## Narrowing (R147, R148) -/

theorem narrow_toInt_eq_self_iff (x : Int) : (narrow x).toInt = x ↔ -32768 ≤ x ∧ x ≤ 32767 := by
  rw [narrow_toInt]
  omega

/-- The range of a sample, multiplied by the divisor of the floor division. -/
theorem narrow_scale_toInt_eq_self_iff (ix : Int) (s : Shift) : (narrow (scale ix s)).toInt = scale ix s ↔
    -32768 * 2 ^ s.toNat ≤ ix ∧ ix ≤ 32768 * 2 ^ s.toNat - 1 := by
  have hpos : (0 : Int) < 2 ^ s.toNat := by positivity
  have hlow : -32768 ≤ scale ix s ↔ -32768 * 2 ^ s.toNat ≤ ix := Int.le_ediv_iff_mul_le hpos
  have hhigh : scale ix s < 32768 ↔ ix < 32768 * 2 ^ s.toNat := Int.ediv_lt_iff_lt_mul hpos
  rw [narrow_toInt_eq_self_iff]
  omega

/-- Settles O35: at the peak the factor 32768 cancels. -/
theorem narrowingIsLosslessExactlyInRange : Obligations.NarrowingIsLosslessExactlyInRange := by
  refine ⟨narrow_scale_toInt_eq_self_iff, fun x k s hpeak => ?_⟩
  rw [narrow_scale_toInt_eq_self_iff, mulLo, hpeak]
  omega

/-! ## The ceiling `SHT = 15` (R157) -/

/-- Settles O38: the shift by 15 takes the product of the sample `-32768` to minus the entry, and every other product
into `[-32767, 32767]`. -/
theorem ceilingLeavesOneOverflow : Obligations.CeilingLeavesOneOverflow := by
  intro x k si
  obtain ⟨hlow, hhigh, -⟩ := tableZerosAndPeaks k
  have hsi : si = mulLo x (tabRead k) / 32768 := rfl
  have hceiling : adapts si 15#4 = false := Bool.and_false _
  rw [Ne, narrow_toInt_eq_self_iff, narrow_toInt]
  rcases mulLo_cases x k with ⟨hx, hp⟩ | ⟨hx, hp⟩
  · exact ⟨by omega, by omega, hceiling, by omega, by omega⟩
  · exact ⟨by omega, by omega, hceiling, by omega, by omega⟩

end Sys2Proof.Machine

/-! PROOF. The command `PROCESS` (43_mixer.md R142, R143, R150, R155, R158, R160). -/

namespace Sys2Proof.Machine

variable {s t : State} {cid : ClientIx} {i q : Sample} {r : Client}

/-! ## Gain adaptation (R150) -/

theorem adapts_iff (si : Int) (sh : Shift) : adapts si sh = true ↔ 32767 < si ∧ sh.toNat < 15 := by
  simp [adapts]

theorem State.adapt_trace (si : Int) :
    (s.adapt cid si).trace = s.trace ++ (if 32767 < si ∧ s.sht.toNat < 15 then
      [.evt (Event.gainAdapted cid (BitVec.ofNat 4 (s.sht.toNat + 1))).word] else []) := by
  simp only [← adapts_iff]
  rcases s.adapt_cases cid si with ⟨hadapts, e⟩ | ⟨hadapts, e⟩
  · simp [e, hadapts, BitVec.ofNat_add]
  · simp [e, hadapts]

theorem State.adapt_of_le {si : Int} (h : si ≤ 32767) : s.adapt cid si = s := by
  rcases s.adapt_cases cid si with ⟨hadapts, -⟩ | ⟨-, e⟩
  · obtain ⟨hover, -⟩ := (adapts_iff _ _).mp hadapts
    exact absurd hover (Int.not_lt.mpr h)
  · exact e

/-! ## The two outcomes of `PROCESS` -/

/-- The shifted product of a sample and the oscillator sample that the next step of row `r` reads, in integers. -/
def shiftedProduct (s : State) (r : Client) (x : Sample) : Int :=
  x.toInt * tabInt ((r.phase + r.fcw).toNat / 65536) / 2 ^ s.sht.toNat

/-- The multiplier and the scaler of the model compute it. -/
theorem scale_mulLo_eq_shiftedProduct (s : State) (r : Client) (x : Sample) :
    scale (mulLo x (tabRead (tableIndex (r.phase + r.fcw)))) s.sht = shiftedProduct s r x := by
  rw [mulLo, tabRead_tableIndex_toInt]
  rfl

theorem exec_process_of_rejected {st : Status} (h : rejectionOfClient cid s = some st) :
    exec (.process cid i q) s = .next { s with trace := s.trace ++ [.rsp (rspWord 3#4 cid st 0#32)] } := by
  simp only [exec, execProcess, h]
  rfl

theorem exec_process_of_accepted (hacc : rejectionOfClient cid s = none) (hr : s.row cid = some r) :
    exec (.process cid i q) s = .next
      (((s.setRow cid { r with phase := r.phase + r.fcw }).adapt cid (shiftedProduct s r i)).answer 3#4 cid .ok
        (narrow (shiftedProduct s r i) ++ narrow (shiftedProduct s r q))) := by
  simp only [exec, execProcess, hacc, State.ncoStep_of_row hr, scale_mulLo_eq_shiftedProduct]
  rfl

/-- Settles O30: the registers by the frame of `PROCESS` and the row it writes, the rest by gain adaptation. -/
theorem processCompletes : Obligations.ProcessCompletes := by
  intro s cid i q r hs hinited hcid hr p lo sh si sq
  have hacc := (rejectionOfClient_eq_none s cid).mpr ⟨hinited, hcid⟩
  have hexec := exec_process_of_accepted (i := i) (q := q) hacc hr
  obtain ⟨-, -, hinited', hsrate, -, hother, -⟩ := processFrame _ _ _ _ _ hexec
  refine ⟨_, hexec, ?row, hother, hinited', hsrate, ?sht, ?trace⟩
  case row => rw [exec_process_row hexec, if_pos (acceptsClient_iff.mpr hacc), hr, Option.map_some]
  case sht =>
    rw [State.answer_sht, State.adapt_sht_toNat]
    simp only [adapts_iff, State.setRow_sht]
    exact apply_ite (sh + ·) _ _ _
  case trace =>
    rw [State.answer_trace, State.adapt_trace]
    rfl

/-- Settles O31: each of the first two clauses is one cause of R143, and the third is R142's completion. -/
theorem processRejectionsInOrder : Obligations.ProcessRejectionsInOrder := by
  intro s cid i q
  refine ⟨fun hinited => ?_, fun hinited hcid => ?_, fun hs hinited hcid i' q' => ?_⟩
  · exact exec_process_of_rejected ((rejectionOfClient_eq_some s cid _).mpr (.inl ⟨hinited, rfl⟩))
  · exact exec_process_of_rejected ((rejectionOfClient_eq_some s cid _).mpr (.inr ⟨hinited, hcid, rfl⟩))
  · obtain ⟨r, hr⟩ := hs.exists_row ((rejectionOfClient_eq_none s cid).mpr ⟨hinited, hcid⟩)
    obtain ⟨t, hexec, -, -, -, -, -, htrace⟩ := processCompletes s cid i' q' r hs hinited hcid hr
    exact ⟨t, _, _, hexec, htrace⟩

/-! ## Silence at a zero crossing (R158) -/

theorem tabInt_phase_eq_zero_iff (p : Word) :
    tabInt (p.toNat / 65536) = 0 ↔ p.toNat < 2 ^ 16 ∨ (2 ^ 31 ≤ p.toNat ∧ p.toNat < 2 ^ 31 + 2 ^ 16) := by
  obtain ⟨-, -, hzero, -⟩ := tableZerosAndPeaks (tableIndex p)
  rw [tabRead_tableIndex_toInt, tableIndex_toNat] at hzero
  omega

theorem shiftedProduct_eq_zero (hlo : tabInt ((r.phase + r.fcw).toNat / 65536) = 0) (x : Sample) :
    shiftedProduct s r x = 0 := by
  rw [shiftedProduct, hlo, Int.mul_zero, Int.zero_ediv]

/-- Settles O36: both products are 0, and 0 is no overflow. -/
theorem zeroCrossingGivesSilence : Obligations.ZeroCrossingGivesSilence := by
  intro s cid i q r hs hinited hcid hr p
  refine ⟨tabInt_phase_eq_zero_iff _, fun hlo => ?_⟩
  have hzero (x : Sample) : shiftedProduct s r x = 0 := shiftedProduct_eq_zero hlo x
  have hexec := exec_process_of_accepted (i := i) (q := q)
    ((rejectionOfClient_eq_none s cid).mpr ⟨hinited, hcid⟩) hr
  rw [hzero, hzero, State.adapt_of_le (by decide)] at hexec
  exact ⟨_, hexec, rfl, rfl⟩

/-! ## The positive peak (R160) -/

/-- At the peak the largest sample overflows exactly when the divisor is at most 32767. -/
theorem lt_peak_shifted_iff (sh : Nat) : (32767 : Int) < 1073709056 / 2 ^ sh ↔ sh ≤ 14 := by
  have hfloor : (32768 : Int) ≤ 1073709056 / 2 ^ sh ↔ 32768 * 2 ^ sh ≤ (1073709056 : Int) :=
    Int.le_ediv_iff_mul_le (by positivity)
  have hpow : (2 : Int) ^ sh < 2 ^ 15 ↔ sh < 15 := pow_lt_pow_iff_right₀ (by decide)
  omega

/-- Settles O37: the completion of R142 with the I product `32767 * 32768` and the Q product 0. -/
theorem positivePeakRaisesTheShift : Obligations.PositivePeakRaisesTheShift := by
  intro s cid r hs hinited hcid hr hpeak si rsp
  have hoverflow : 32767 < si ↔ s.sht.toNat ≤ 14 := lt_peak_shifted_iff s.sht.toNat
  obtain ⟨t, hexec, -, -, -, -, hsht, htrace⟩ := processCompletes s cid 32767#16 0#16 r hs hinited hcid hr
  have hi : (32767#16).toInt * 32768 = 1073709056 := by decide
  have hq : (0#16).toInt * 32768 / 2 ^ s.sht.toNat = 0 := by simp
  rw [hpeak, hi] at hsht htrace
  rw [hq] at htrace
  refine ⟨hoverflow, t, hexec, fun hle => ?_, fun htop => ?_⟩
  · have hadapts : 32767 < si ∧ s.sht.toNat < 15 := by omega
    rw [if_pos hadapts] at hsht htrace
    rw [← hsht, BitVec.ofNat_toNat, BitVec.setWidth_eq, List.append_assoc] at htrace
    exact ⟨hsht, htrace⟩
  · have hadapts : ¬ (32767 < si ∧ s.sht.toNat < 15) := by omega
    rw [if_neg hadapts] at hsht htrace
    rw [List.append_nil] at htrace
    exact ⟨BitVec.eq_of_toNat_eq hsht, htrace⟩

/-! ## What drives adaptation (R155) -/

/-- `PROCESS` with another Q sample answers from the same state with the same status: only `DATA` differs. -/
theorem exec_process_eq_answer (h : exec (.process cid i q) s = .next t) :
    ∃ (u : State) (st : Status), ∀ q', ∃ d, exec (.process cid i q') s = .next (u.answer 3#4 cid st d) := by
  cases hrej : rejectionOfClient cid s with
  | some st => exact ⟨s, st, fun _ => ⟨0#32, exec_process_of_rejected hrej⟩⟩
  | none =>
    cases hr : s.row cid with
    | some r => exact ⟨_, .ok, fun _ => ⟨_, exec_process_of_accepted hrej hr⟩⟩
    | none => simp [exec, execProcess, hrej, (s.ncoStep_eq_none cid).mpr hr] at h

/-- Settles O39: the state before the answer settles the first part; in the second, whether rejected or accepted, only
the answer is left. -/
theorem onlyPositiveIDrivesAdaptation : Obligations.OnlyPositiveIDrivesAdaptation := by
  refine ⟨fun s t t' cid i q q' ht ht' => ?_, fun s t cid i q r hr hle ht => ?_⟩
  · obtain ⟨u, st, hanswer⟩ := exec_process_eq_answer ht
    obtain ⟨d, hd⟩ := hanswer q
    obtain ⟨d', hd'⟩ := hanswer q'
    obtain rfl := Host.Outcome.next.inj (ht.symm.trans hd)
    obtain rfl := Host.Outcome.next.inj (ht'.symm.trans hd')
    exact ⟨rfl, rfl, rfl, rfl, by simp⟩
  · cases hrej : rejectionOfClient cid s with
    | some st =>
      obtain rfl := Host.Outcome.next.inj (ht.symm.trans (exec_process_of_rejected hrej))
      exact ⟨rfl, _, rfl⟩
    | none =>
      have hexec := exec_process_of_accepted (i := i) (q := q) hrej hr
      have hquiet : shiftedProduct s r i ≤ 32767 := hle
      rw [State.adapt_of_le hquiet] at hexec
      obtain rfl := Host.Outcome.next.inj (ht.symm.trans hexec)
      exact ⟨rfl, _, rfl⟩

end Sys2Proof.Machine

/-! PROOF. The Oscillator Table as the reconstruction from the difference digits of R171, their sum and their counts
(45_table_data.md R170). The sum is the last entry of the first quarter; the five counts are read off one sum over the
data, whose digits in base 32768 they are. -/

namespace Sys2Proof.Machine

/-! ## The recurrence on the first quarter -/

theorem tabInt_succ {k : Nat} (hk : k < 16384) : tabInt (k + 1) = tabInt k + diffDigit k := by
  rw [tabInt_firstQuarter hk, tabInt_firstQuarter hk.le, tabQuarter_succ k hk, Nat.cast_add]

/-- The recurrence summed: an entry of the first quarter is the sum of the difference digits before it. -/
theorem sum_map_diffDigit {n : Nat} (hn : n ≤ 16384) : ((List.range n).map diffDigit).sum = tabQuarter n := by
  induction n with
  | zero => exact tabQuarter_zero.symm
  | succ n ih =>
    rw [List.range_succ, List.map_append, List.sum_append, ih (by omega), tabQuarter_succ n hn, List.map_singleton,
      List.sum_singleton]

/-! ## Sums over the difference digits, one line of R171 at a time -/

/-- The sum of `f d` over the last `n` digits `d` of the numeral `x`. -/
def lineSum (f : Nat → Nat) (x : Nat) : Nat → Nat
  | 0 => 0
  | n + 1 => f (x / 10 ^ n % 10) + lineSum f x n

/-- Read from the left, digit `j` of the last `n` is the one of weight `10 ^ (n - 1 - j)`. -/
theorem lineSum_eq (f : Nat → Nat) (x n : Nat) :
    lineSum f x n = ((List.range n).map fun j => f (x / 10 ^ (n - 1 - j) % 10)).sum := by
  induction n with
  | zero => rfl
  | succ n ih =>
    rw [lineSum, ih, List.range_succ_eq_map, List.map_cons, List.map_map, List.sum_cons]
    simp [Function.comp_def, Nat.sub_sub, Nat.add_comm]

theorem lineSum_line (f : Nat → Nat) (r : Nat) : lineSum f (digitRows.getD r (0, 0)).1 64 =
    ((List.range 64).map fun j => f (diffDigit (64 * r + j))).sum := by
  rw [lineSum_eq]
  refine congrArg List.sum (List.map_congr_left fun j hj => ?_)
  have hj : j < 64 := List.mem_range.mp hj
  rw [diffDigit, show (64 * r + j) / 64 = r by omega, show (64 * r + j) % 64 = j by omega]

theorem map_digitRows {α : Type} (g : Nat × Nat → α) :
    digitRows.map g = (List.range 256).map fun r => g (digitRows.getD r (0, 0)) := by
  refine List.ext_getElem (by simp [digitRows_length]) fun r hr _ => ?_
  have hr : r < digitRows.length := by simpa using hr
  rw [List.getElem_map, List.getElem_map, List.getElem_range, List.getD_eq_getElem _ _ hr]

/-- A sum over the difference digits is the sum of its lines' sums, which the kernel evaluates. -/
theorem sum_map_diffDigit_eq_lines (f : Nat → Nat) : (((List.range 16384).map diffDigit).map f).sum =
    (digitRows.map fun line => lineSum f line.1 64).sum := by
  rw [List.map_map, show 16384 = 64 * 256 from rfl, sum_range_mul, map_digitRows]
  simp only [lineSum_line, Function.comp_apply]

/-! ## The counts -/

/-- The digits `c i` in base `b` of a number are read off by division. -/
theorem sum_mul_pow_div_pow_mod {b : Nat} (d : Nat) {n : Nat} {c : Nat → Nat} (hc : ∀ i, c i < b) (hd : d < n) :
    (∑ i ∈ Finset.range n, c i * b ^ i) / b ^ d % b = c d := by
  obtain _ | m := n
  · exact absurd hd (Nat.not_lt_zero d)
  have hshift : ∑ i ∈ Finset.range (m + 1), c i * b ^ i = c 0 + b * ∑ i ∈ Finset.range m, c (i + 1) * b ^ i := by
    rw [Finset.sum_range_succ', Finset.mul_sum, pow_zero, mul_one, add_comm]
    exact congrArg _ (Finset.sum_congr rfl fun i _ => by ring)
  rw [hshift]
  cases d with
  | zero => rw [pow_zero, Nat.div_one, Nat.add_mul_mod_self_left, Nat.mod_eq_of_lt (hc 0)]
  | succ d =>
    rw [pow_succ', ← Nat.div_div_eq_div_mul, Nat.add_mul_div_left _ _ (Nat.zero_lt_of_lt (hc 0)),
      Nat.div_eq_of_lt (hc 0), Nat.zero_add]
    exact sum_mul_pow_div_pow_mod d (fun i => hc (i + 1)) (Nat.lt_of_succ_lt_succ hd)

/-- In a list shorter than `b`, the count of a value `d` is digit `d` in base `b` of one sum over the list. -/
theorem count_eq_sum_pow_div_mod {b n d : Nat} {l : List Nat} (hlength : l.length < b) (hl : ∀ e ∈ l, e < n)
    (hd : d < n) : l.count d = (l.map (b ^ ·)).sum / b ^ d % b := by
  have hsum : (l.map (b ^ ·)).sum = ∑ e ∈ Finset.range n, l.count e * b ^ e := by
    rw [Finset.sum_list_map_count]
    refine Finset.sum_subset (fun e he => Finset.mem_range.mpr (hl e (List.mem_toFinset.mp he))) fun e _ he => ?_
    rw [List.count_eq_zero_of_not_mem (mt List.mem_toFinset.mpr he), zero_smul]
  rw [hsum, sum_mul_pow_div_pow_mod d (fun _ => List.count_le_length.trans_lt hlength) hd]

/-- The one evaluation over the data of R171; no digit above 4 contributes. -/
theorem sum_pow_digitRows : (digitRows.map fun line => lineSum (32768 ^ ·) line.1 64).sum =
    1675 + 3548 * 32768 + 4559 * 32768 ^ 2 + 6306 * 32768 ^ 3 + 296 * 32768 ^ 4 := by
  decide +kernel

/-- There are fewer than 32768 digits, so the evaluated sum has their counts as its digits. -/
theorem count_diffDigit {d : Nat} (hd : d < 10) : ((List.range 16384).map diffDigit).count d =
    (1675 + 3548 * 32768 + 4559 * 32768 ^ 2 + 6306 * 32768 ^ 3 + 296 * 32768 ^ 4) / 32768 ^ d % 32768 := by
  have hlength : ((List.range 16384).map diffDigit).length < 32768 := by
    rw [List.length_map, List.length_range]
    decide
  rw [count_eq_sum_pow_div_mod hlength (List.forall_mem_map.mpr fun k _ => diffDigit_lt k) hd,
    sum_map_diffDigit_eq_lines, sum_pow_digitRows]

theorem map_count_diffDigit : (List.range 5).map (fun d => ((List.range 16384).map diffDigit).count d) =
    [1675, 3548, 4559, 6306, 296] := by
  rw [List.map_congr_left fun d hd => count_diffDigit ((List.mem_range.mp hd).trans (by decide))]
  rfl

/-- Settles O56: the recurrence and the two symmetries are laws of the table, the digits sum to its entry 16384,
and the counts are those of the evaluated sum. -/
theorem tableIsTheReconstruction : Obligations.TableIsTheReconstruction := by
  refine ⟨?start, fun k hk => tabInt_succ hk, fun k _ hk => (tabInt_mirror hk).symm, fun k hlo hhi => ?halfWave,
    ?sum, map_count_diffDigit⟩
  case start => rw [tabInt_firstQuarter (Nat.zero_le _), tabQuarter_zero, Nat.cast_zero]
  case halfWave =>
    have h := tabInt_add_halfWave (k := k - 32768) (by omega)
    rwa [Nat.add_sub_cancel' (by omega)] at h
  case sum => rw [sum_map_diffDigit le_rfl, tabQuarter_top]

end Sys2Proof.Machine

/-! PROOF. Rejections (60_exceptions.md R175 to R181): why a command word is rejected, if it is, what a rejected and an
accepted word are answered with, and the one status that is reported. -/

namespace Sys2Proof.Machine

variable {s t : State} {i : Instr} {w : CmdWord} {l : List Transfer} {r : RspWord}

/-! ## The cause of a rejection -/

/-- Why a command is rejected, if it is: the check that its execution begins with (R176, R177). -/
def rejectionOf (i : Instr) (s : State) : Option Status :=
  match i with
  | .init srate => rejectionOfInit srate s
  | .setfreq cid _ => rejectionOfClient cid s
  | .process cid _ _ => rejectionOfClient cid s

/-- Why a word is rejected, if it is: decoding comes before the checks of the command (R179). -/
def rejectionOfWord (w : CmdWord) (s : State) : Option Status :=
  match decode w with
  | .error _ => some .errIllegalCmd
  | .ok i => rejectionOf i s

/-- The status a word is answered with: the cause of its rejection, or `OK`. -/
def statusOfWord (w : CmdWord) (s : State) : Status := (rejectionOfWord w s).getD .ok

theorem rejectionOfWord_of_decode_error {e : Illegal} (h : decode w = .error e) :
    rejectionOfWord w s = some .errIllegalCmd := by
  simp only [rejectionOfWord, h]

theorem rejectionOfWord_of_decode_ok (h : decode w = .ok i) : rejectionOfWord w s = rejectionOf i s := by
  simp only [rejectionOfWord, h]

/-- No check reads what the ports have carried, and a rejection changes nothing else. -/
theorem rejectionOfWord_reject (opc : BitVec 4) (cid : ClientIx) (st : Status) :
    rejectionOfWord w (s.reject opc cid st) = rejectionOfWord w s := rfl

/-! ## What a rejected word is answered with -/

theorem exec_of_rejected {st : Status} (h : rejectionOf i s = some st) :
    exec i s = .next (s.reject i.opc i.cid st) := by
  cases i with
  | init srate => exact exec_init_of_rejected h
  | setfreq cid offs => exact exec_setfreq_of_rejected h
  | process cid x y => exact exec_process_of_rejected h

/-- R178 for every cause: the one rejection, with the word's own `OPC` and `CID` bits. -/
theorem act_cmd_of_rejected {st : Status} (h : rejectionOfWord w s = some st) :
    act (.cmd w) s = .next (s.reject (opcField w) (cidField w) st) := by
  cases hdecode : decode w with
  | error e =>
    obtain rfl := Option.some.inj ((rejectionOfWord_of_decode_error hdecode).symm.trans h)
    exact act_cmd_of_decode_error hdecode
  | ok i =>
    obtain ⟨hopc, hcid⟩ := decode_ok_echo w i hdecode
    rw [rejectionOfWord_of_decode_ok hdecode] at h
    rw [act_cmd_of_decode_ok hdecode, exec_of_rejected h, hopc, hcid]

/-! ## What an accepted word is answered with -/

theorem exec_of_accepted (hacc : rejectionOf i s = none) (h : exec i s = .next t) :
    ∃ (u : State) (d : Word), t = u.answer i.opc i.cid .ok d := by
  cases i with
  | init srate =>
    obtain ⟨hinited, hrate⟩ := (rejectionOfInit_eq_none s srate).mp hacc
    rw [exec_init_of_accepted hinited hrate] at h
    exact ⟨_, _, (Host.Outcome.next.inj h).symm⟩
  | setfreq cid offs =>
    have hclient : rejectionOfClient cid s = none := hacc
    cases hr : s.row cid with
    | none => simp [exec, execSetfreq, hclient, hr] at h
    | some row =>
      rw [exec_setfreq_of_accepted hclient hr] at h
      exact ⟨_, _, (Host.Outcome.next.inj h).symm⟩
  | process cid x y =>
    have hclient : rejectionOfClient cid s = none := hacc
    cases hr : s.row cid with
    | none => simp [exec, execProcess, hclient, (s.ncoStep_eq_none cid).mpr hr] at h
    | some row =>
      rw [exec_process_of_accepted hclient hr] at h
      exact ⟨_, _, (Host.Outcome.next.inj h).symm⟩

/-- Whatever else a word does, it ends with the response that reports `statusOfWord`. -/
theorem act_cmd_eq_answer (h : act (.cmd w) s = .next t) :
    ∃ (u : State) (d : Word), t = u.answer (opcField w) (cidField w) (statusOfWord w s) d := by
  unfold statusOfWord
  cases hrej : rejectionOfWord w s with
  | some st =>
    rw [act_cmd_of_rejected hrej] at h
    exact ⟨s, 0#32, (Host.Outcome.next.inj h).symm⟩
  | none =>
    cases hdecode : decode w with
    | error e => exact absurd hrej (by simp [rejectionOfWord_of_decode_error hdecode])
    | ok i =>
      obtain ⟨hopc, hcid⟩ := decode_ok_echo w i hdecode
      rw [rejectionOfWord_of_decode_ok hdecode] at hrej
      rw [act_cmd_of_decode_ok hdecode] at h
      rw [← hopc, ← hcid]
      exact exec_of_accepted hrej h

/-! ## The response and its status -/

theorem append_rsp_inj {l' : List Transfer} {r' : RspWord} (h : l ++ [.rsp r] = l' ++ [.rsp r']) : l = l' ∧ r = r' := by
  obtain ⟨hl, hr⟩ := List.append_inj' h rfl
  exact ⟨hl, Transfer.rsp.inj (List.singleton_inj.mp hr)⟩

theorem act_cmd_status (h : act (.cmd w) s = .next t) (htrace : t.trace = l ++ [.rsp r]) :
    r.toNat / 2 ^ 48 % 2 ^ 4 = (statusOfWord w s).code.toNat := by
  obtain ⟨u, d, rfl⟩ := act_cmd_eq_answer h
  obtain ⟨-, rfl⟩ := append_rsp_inj htrace
  obtain ⟨-, hstatus, -⟩ := rspWord_fields (opcField w) (cidField w) (statusOfWord w s) d
  exact hstatus

/-- A response whose status is not `OK` is that of a rejection, and nothing came before it. -/
theorem act_cmd_rejected_of_status_ne_zero (h : act (.cmd w) s = .next t) (htrace : t.trace = l ++ [.rsp r])
    (hnot : r.toNat / 2 ^ 48 % 2 ^ 4 ≠ 0) :
    ∃ st, rejectionOfWord w s = some st ∧ t = s.reject (opcField w) (cidField w) st ∧ l = s.trace ∧
      r = rspWord (opcField w) (cidField w) st 0#32 := by
  cases hrej : rejectionOfWord w s with
  | none =>
    have hok := act_cmd_status h htrace
    rw [statusOfWord, hrej] at hok
    exact absurd hok hnot
  | some st =>
    rw [act_cmd_of_rejected hrej] at h
    obtain rfl := Host.Outcome.next.inj h
    obtain ⟨hl, hr⟩ := append_rsp_inj htrace
    exact ⟨st, rfl, rfl, hl.symm, hr.symm⟩

/-- Settles O40: the word was rejected, and `State.reject` adds one response with `DATA = 0` to the record. -/
theorem rejectedCommandChangesNothing : Obligations.RejectedCommandChangesNothing := by
  intro w s t evs r h htrace hnot
  obtain ⟨st, -, rfl, hevs, rfl⟩ := act_cmd_rejected_of_status_ne_zero h htrace hnot
  obtain ⟨hecho, -⟩ := rspWord_fields (opcField w) (cidField w) st 0#32
  refine ⟨List.append_right_eq_self.mp hevs, rfl, ?_, hecho.trans (opcField_cidField_toNat w)⟩
  rw [rspWord_toNat, BitVec.toNat_ofNat]
  omega

/-- Settles O41: the cause of the rejection still applies in the state it left. -/
theorem rejectedCommandIsRejectedAgain : Obligations.RejectedCommandIsRejectedAgain := by
  intro w s t evs r h htrace hnot
  obtain ⟨st, hrej, rfl, -, rfl⟩ := act_cmd_rejected_of_status_ne_zero h htrace hnot
  exact act_cmd_of_rejected ((rejectionOfWord_reject _ _ _).trans hrej)

/-! ## The first cause that applies (R179) -/

theorem rejectionOfInit_code (srate : Word) (s : State) :
    ((rejectionOfInit srate s).getD .ok).code.toNat =
      if s.inited then 3 else if srate.toNat = 0 then 5 else 0 := by
  have hzero : srate.toNat = 0 ↔ srate = 0#32 := BitVec.toNat_inj (y := 0#32)
  cases hinited : s.inited with
  | true =>
    rw [(rejectionOfInit_eq_some s srate _).mpr (.inl ⟨hinited, rfl⟩)]
    rfl
  | false =>
    by_cases hrate : srate = 0#32
    · rw [(rejectionOfInit_eq_some s srate _).mpr (.inr ⟨hinited, hrate, rfl⟩), if_pos (hzero.mpr hrate)]
      rfl
    · rw [(rejectionOfInit_eq_none s srate).mpr ⟨hinited, hrate⟩, if_neg (mt hzero.mp hrate)]
      rfl

theorem rejectionOfClient_code (cid : ClientIx) (s : State) :
    ((rejectionOfClient cid s).getD .ok).code.toNat =
      if s.inited = false then 1 else if s.cfg.maxClients ≤ cid.toNat then 2 else 0 := by
  cases hinited : s.inited with
  | false =>
    rw [(rejectionOfClient_eq_some s cid _).mpr (.inl ⟨hinited, rfl⟩)]
    rfl
  | true =>
    by_cases hcid : s.cfg.maxClients ≤ cid.toNat
    · rw [(rejectionOfClient_eq_some s cid _).mpr (.inr ⟨hinited, hcid, rfl⟩), if_pos hcid]
      rfl
    · rw [(rejectionOfClient_eq_none s cid).mpr ⟨hinited, Nat.not_le.mp hcid⟩, if_neg hcid]
      rfl

/-- R179, with the fields of the word as numbers: illegal word, then lifecycle, then operand. -/
theorem statusOfWord_code (w : CmdWord) (s : State) :
    (statusOfWord w s).code.toNat =
      if (w.toNat / 2 ^ 60 = 0 ∨ 4 ≤ w.toNat / 2 ^ 60) ∨ w.toNat / 2 ^ 32 % 2 ^ 20 ≠ 0 ∨
          (w.toNat / 2 ^ 60 = 1 ∧ w.toNat / 2 ^ 52 % 2 ^ 8 ≠ 0) then 4
      else if w.toNat / 2 ^ 60 = 1 then (if s.inited then 3 else if w.toNat % 2 ^ 32 = 0 then 5 else 0)
      else if s.inited = false then 1
      else if s.cfg.maxClients ≤ w.toNat / 2 ^ 52 % 2 ^ 8 then 2
      else 0 := by
  unfold statusOfWord
  cases hdecode : decode w with
  | error e =>
    have hillegal := (exists_decode_eq_error_iff w).mp ⟨e, hdecode⟩
    rw [exists_decode_eq_ok_iff_toNat] at hillegal
    rw [if_pos (by omega), rejectionOfWord_of_decode_error hdecode]
    rfl
  | ok i =>
    have hlegal := (exists_decode_eq_ok_iff_toNat w).mp ⟨i, hdecode⟩
    rw [if_neg (by omega), rejectionOfWord_of_decode_ok hdecode, ← opcField_toNat, ← cidField_toNat, ← argField_toNat]
    obtain ⟨-, ⟨hopc, -, rfl⟩ | ⟨hopc, rfl⟩ | ⟨hopc, rfl⟩⟩ := decode_ok_cases w i hdecode
    · rw [hopc, if_pos (by decide)]
      exact rejectionOfInit_code _ s
    · rw [hopc, if_neg (by decide)]
      exact rejectionOfClient_code _ s
    · rw [hopc, if_neg (by decide)]
      exact rejectionOfClient_code _ s

/-- Settles O42: the one response of the word reports `statusOfWord`. -/
theorem firstCauseIsReported : Obligations.FirstCauseIsReported := by
  intro w s hs opc cid rsv arg
  obtain ⟨t, h⟩ := act_answers hs (.cmd w)
  obtain ⟨evs, r, htrace, -⟩ := oneResponsePerCommand w s t h
  exact ⟨t, evs, r, h, htrace, (act_cmd_status h htrace).trans (statusOfWord_code w s)⟩

end Sys2Proof.Machine

/-! PROOF. Reset (70_reset_and_hazards.md R210 to R212): what a step on it does, and that nothing from before it shows
afterwards. Two blocks that hold the same of every register with a value put the same words on the ports; a reset makes
them hold the same. Nothing here uses that the model holds one value for each register without value
(notes/assumptions/3.md). -/

namespace Sys2Proof.Machine

variable {s s₁ s₂ t₁ t₂ u₁ u₂ : State} {i : Instr} {a : HostAction} {as : List HostAction}

/-- Settles O11: the step performs the reset, and the rest is what `State.afterReset` holds. -/
theorem stepOnResetOrNothingPending : Obligations.StepOnResetOrNothingPending := by
  refine ⟨fun s rest hpending => ?_, fun s hpending => step_of_pending_nil hpending⟩
  exact ⟨({ s with pending := rest } : State).afterReset, step_of_pending_cons hpending, rfl, rfl,
    State.resetOf_clients_length s.cfg, rfl, rfl, rfl⟩

/-! ## Agreement on every register that has a value -/

/-- The two states hold the same of everything a command reads: `SHT`, and for every client what `State.AgreeOn` lists,
in which the registers without value do not count. -/
structure State.Agree (s t : State) : Prop where
  client : ∀ c, s.AgreeOn c t
  sht : s.sht = t.sht

theorem State.Agree.cfg (h : s₁.Agree s₂) : s₁.cfg = s₂.cfg := (h.client 0#8).cfg

theorem State.Agree.inited (h : s₁.Agree s₂) : s₁.inited = s₂.inited := (h.client 0#8).inited

theorem State.Agree.srate (h : s₁.Agree s₂) (hrun : s₁.inited = true) : s₁.srate = s₂.srate :=
  (h.client 0#8).srate hrun

/-- R210: the parameters are all that the state after reset is computed from. -/
theorem State.agree_afterReset (hcfg : s₁.cfg = s₂.cfg) : s₁.afterReset.Agree s₂.afterReset :=
  ⟨fun _ => ⟨hcfg, rfl, nofun, nofun⟩, congrArg Config.shtInit hcfg⟩

theorem rejectionOfInit_congr (hs : s₁.Agree s₂) (srate : Word) :
    rejectionOfInit srate s₁ = rejectionOfInit srate s₂ := by
  unfold rejectionOfInit lifecycleUninit
  rw [hs.inited]

theorem rejectionOfClient_congr (hs : s₁.Agree s₂) (cid : ClientIx) :
    rejectionOfClient cid s₁ = rejectionOfClient cid s₂ := by
  unfold rejectionOfClient lifecycleRun clientInRange
  rw [hs.inited, hs.cfg]

/-- The checks of a command read `INITED` and the parameters only (R176, R177). -/
theorem rejectionOf_congr (hs : s₁.Agree s₂) (i : Instr) : rejectionOf i s₁ = rejectionOf i s₂ := by
  cases i with
  | init srate => exact rejectionOfInit_congr hs srate
  | setfreq cid offs => exact rejectionOfClient_congr hs cid
  | process cid x y => exact rejectionOfClient_congr hs cid

/-- Adaptation reads no other register than `SHT` (R150). -/
theorem State.adapt_sht_congr (hsht : s₁.sht = s₂.sht) (cid : ClientIx) (si : Int) :
    (s₁.adapt cid si).sht = (s₂.adapt cid si).sht := by
  apply BitVec.eq_of_toNat_eq
  rw [State.adapt_sht_toNat, State.adapt_sht_toNat, hsht]

/-! ## The outputs of two blocks side by side -/

/-- From `s₁` to `t₁` and from `s₂` to `t₂` the ports have carried the same words. -/
def SameOutputs (s₁ t₁ s₂ t₂ : State) : Prop :=
  ∃ new, t₁.trace = s₁.trace ++ new ∧ t₂.trace = s₂.trace ++ new

theorem SameOutputs.refl (s₁ s₂ : State) : SameOutputs s₁ s₁ s₂ s₂ := ⟨[], by simp⟩

theorem SameOutputs.trans (h : SameOutputs s₁ u₁ s₂ u₂) (h' : SameOutputs u₁ t₁ u₂ t₂) :
    SameOutputs s₁ t₁ s₂ t₂ := by
  obtain ⟨new, hu₁, hu₂⟩ := h
  obtain ⟨new', ht₁, ht₂⟩ := h'
  exact ⟨new ++ new', by rw [ht₁, hu₁, List.append_assoc], by rw [ht₂, hu₂, List.append_assoc]⟩

theorem SameOutputs.drop_eq (h : SameOutputs s₁ t₁ s₂ t₂) :
    t₁.trace.drop s₁.trace.length = t₂.trace.drop s₂.trace.length := by
  obtain ⟨new, ht₁, ht₂⟩ := h
  rw [ht₁, ht₂, List.drop_left, List.drop_left]

theorem SameOutputs.answer (h : SameOutputs s₁ t₁ s₂ t₂) (opc : BitVec 4) (cid : ClientIx) (st : Status) (d : Word) :
    SameOutputs s₁ (t₁.answer opc cid st d) s₂ (t₂.answer opc cid st d) :=
  h.trans ⟨_, rfl, rfl⟩

theorem SameOutputs.setRow (h : SameOutputs s₁ t₁ s₂ t₂) (cid : ClientIx) (r₁ r₂ : Client) :
    SameOutputs s₁ (t₁.setRow cid r₁) s₂ (t₂.setRow cid r₂) := h

theorem SameOutputs.announceFreq (h : SameOutputs s₁ t₁ s₂ t₂) (hcfg : t₁.cfg = t₂.cfg) (cid : ClientIx)
    (offs w : Word) : SameOutputs s₁ (t₁.announceFreq cid offs w) s₂ (t₂.announceFreq cid offs w) :=
  h.trans ⟨_, by rw [State.announceFreq_trace, List.append_assoc],
    by rw [State.announceFreq_trace, List.append_assoc, hcfg]⟩

theorem SameOutputs.adapt (h : SameOutputs s₁ t₁ s₂ t₂) (hsht : t₁.sht = t₂.sht) (cid : ClientIx) (si : Int) :
    SameOutputs s₁ (t₁.adapt cid si) s₂ (t₂.adapt cid si) :=
  h.trans ⟨_, State.adapt_trace si, by rw [State.adapt_trace, hsht]⟩

/-! ## The same action in two states that agree -/

/-- An accepted `SETFREQ` or `PROCESS` runs in state `RUN`, where the client's row has a value. -/
theorem State.Agree.run_of_accepted {cid : ClientIx} (hs : s₁.Agree s₂) (hacc : rejectionOfClient cid s₁ = none) :
    s₁.inited = true ∧ s₁.row cid = s₂.row cid := by
  obtain ⟨hrun, -⟩ := (rejectionOfClient_eq_none s₁ cid).mp hacc
  exact ⟨hrun, (hs.client cid).row hrun⟩

theorem exec_setfreq_sht_and_outputs {cid : ClientIx} {offs : Word} (hs : s₁.Agree s₂)
    (hacc₁ : rejectionOfClient cid s₁ = none) (hacc₂ : rejectionOfClient cid s₂ = none)
    (h₁ : exec (.setfreq cid offs) s₁ = .next t₁) (h₂ : exec (.setfreq cid offs) s₂ = .next t₂) :
    t₁.sht = t₂.sht ∧ SameOutputs s₁ t₁ s₂ t₂ := by
  obtain ⟨hrun, hrow⟩ := hs.run_of_accepted hacc₁
  cases hr : s₁.row cid with
  | none => simp [exec, execSetfreq, hacc₁, hr] at h₁
  | some r =>
    cases (exec_setfreq_of_accepted hacc₁ hr).symm.trans h₁
    cases (exec_setfreq_of_accepted hacc₂ (hrow.symm.trans hr)).symm.trans h₂
    rw [hs.srate hrun]
    exact ⟨by simpa using hs.sht, (((SameOutputs.refl s₁ s₂).setRow _ _ _).announceFreq hs.cfg _ _ _).answer _ _ _ _⟩

theorem exec_process_sht_and_outputs {cid : ClientIx} {x y : Sample} (hs : s₁.Agree s₂)
    (hacc₁ : rejectionOfClient cid s₁ = none) (hacc₂ : rejectionOfClient cid s₂ = none)
    (h₁ : exec (.process cid x y) s₁ = .next t₁) (h₂ : exec (.process cid x y) s₂ = .next t₂) :
    t₁.sht = t₂.sht ∧ SameOutputs s₁ t₁ s₂ t₂ := by
  obtain ⟨-, hrow⟩ := hs.run_of_accepted hacc₁
  cases hr : s₁.row cid with
  | none => simp [exec, execProcess, hacc₁, (s₁.ncoStep_eq_none cid).mpr hr] at h₁
  | some r =>
    have hproduct : shiftedProduct s₁ r = shiftedProduct s₂ r := by
      unfold shiftedProduct
      rw [hs.sht]
    cases (exec_process_of_accepted hacc₁ hr).symm.trans h₁
    cases (exec_process_of_accepted hacc₂ (hrow.symm.trans hr)).symm.trans h₂
    rw [hproduct]
    refine ⟨?_, (((SameOutputs.refl s₁ s₂).setRow _ _ _).adapt hs.sht _ _).answer _ _ _ _⟩
    rw [State.answer_sht, State.answer_sht]
    apply State.adapt_sht_congr
    exact hs.sht

/-- A command is rejected in both states with one status, or accepted in both. -/
theorem exec_sht_and_outputs (hs : s₁.Agree s₂) (h₁ : exec i s₁ = .next t₁) (h₂ : exec i s₂ = .next t₂) :
    t₁.sht = t₂.sht ∧ SameOutputs s₁ t₁ s₂ t₂ := by
  cases hrej₁ : rejectionOf i s₁ with
  | some st =>
    have hrej₂ := (rejectionOf_congr hs i).symm.trans hrej₁
    cases (exec_of_rejected hrej₁).symm.trans h₁
    cases (exec_of_rejected hrej₂).symm.trans h₂
    exact ⟨hs.sht, (SameOutputs.refl s₁ s₂).answer _ _ _ _⟩
  | none =>
    have hrej₂ := (rejectionOf_congr hs i).symm.trans hrej₁
    cases i with
    | init srate =>
      obtain ⟨hinited₁, hrate⟩ := (rejectionOfInit_eq_none s₁ srate).mp hrej₁
      obtain ⟨hinited₂, -⟩ := (rejectionOfInit_eq_none s₂ srate).mp hrej₂
      cases (exec_init_of_accepted hinited₁ hrate).symm.trans h₁
      cases (exec_init_of_accepted hinited₂ hrate).symm.trans h₂
      exact ⟨hs.sht, _, rfl, rfl⟩
    | setfreq cid offs => exact exec_setfreq_sht_and_outputs hs hrej₁ hrej₂ h₁ h₂
    | process cid x y => exact exec_process_sht_and_outputs hs hrej₁ hrej₂ h₁ h₂

/-- The agreement on the clients is kept by `act_agreeOn`; `SHT` and the outputs are those of the command. -/
theorem act_agree (hs : s₁.Agree s₂) (h₁ : act a s₁ = .next t₁) (h₂ : act a s₂ = .next t₂) :
    t₁.Agree t₂ ∧ SameOutputs s₁ t₁ s₂ t₂ := by
  have hclient : ∀ c, t₁.AgreeOn c t₂ := fun c => act_agreeOn (hs.client c) h₁ h₂
  cases a with
  | rst =>
    cases h₁
    cases h₂
    exact ⟨State.agree_afterReset hs.cfg, .refl s₁ s₂⟩
  | cmd w =>
    cases hdecode : decode w with
    | error e =>
      cases (act_cmd_of_decode_error hdecode).symm.trans h₁
      cases (act_cmd_of_decode_error hdecode).symm.trans h₂
      exact ⟨⟨hclient, hs.sht⟩, (SameOutputs.refl s₁ s₂).answer _ _ _ _⟩
    | ok i =>
      rw [act_cmd_of_decode_ok hdecode] at h₁ h₂
      obtain ⟨hsht, houtputs⟩ := exec_sht_and_outputs hs h₁ h₂
      exact ⟨⟨hclient, hsht⟩, houtputs⟩

theorem runActions_outputs (hs : s₁.Agree s₂) (h₁ : runActions as s₁ = .next t₁) (h₂ : runActions as s₂ = .next t₂) :
    SameOutputs s₁ t₁ s₂ t₂ := by
  induction as generalizing s₁ s₂ with
  | nil =>
    cases h₁
    cases h₂
    exact .refl _ _
  | cons a as ih =>
    obtain ⟨u₁, hact₁, hrest₁⟩ := runActions_cons h₁
    obtain ⟨u₂, hact₂, hrest₂⟩ := runActions_cons h₂
    obtain ⟨hu, houtputs⟩ := act_agree hs hact₁ hact₂
    exact houtputs.trans (ih hu hrest₁ hrest₂)

/-- Settles O14: the two blocks agree once they are reset, and from then on they put the same words on the ports. -/
theorem resetForgetsEverything : Obligations.ResetForgetsEverything := by
  intro s₁ s₂ t₁ t₂ acts hcfg h₁ h₂
  have h : SameOutputs s₁.afterReset t₁ s₂.afterReset t₂ := runActions_outputs (State.agree_afterReset hcfg) h₁ h₂
  exact h.drop_eq

end Sys2Proof.Machine
